-- ==== Sys2Proof/Word.lean ====
section
/-!
DEFINITION. The two widths of the machine (spec 00_scope.md R7, R9, R10): every register but PC and
every memory cell is 8 bits, PC and every address 16 bits. Both are `BitVec`s, so that `+` and `-`
are the `add8`, `sub8` and `add16` of R12: addition and subtraction modulo 256 and modulo 65536.
-/

namespace Sys2Proof

/-- An unsigned 8-bit value (R7 XLEN_DATA, R9). -/
abbrev Byte := BitVec 8

/-- An unsigned 16-bit value: PC, an address, a 16-bit operand (R7 XLEN_PC, R9). -/
abbrev Word := BitVec 16

end Sys2Proof
end

