-- ==== Sys2Proof/Syntax.lean ====
section
/-!
DEFINITION. The instruction set as syntax: `Instr`, one constructor for each of the 151 rows of the
opcode table (spec 30_encoding.md R77 to R79, opcode_table.json), and the closed sets the spec
speaks of: mnemonics, formats, addressing modes.

AN INSTRUCTION IS ITS OPCODE BYTE. "All 8 bits of byte 0 are the opcode" (R70), and "operand bytes are
not decoded by the table; they are read by the resolver or by the instruction's own rule when the
instruction executes" (R83, R91). So a constructor has no operand field: its meaning reads the operand
bytes from memory at PC. `InstrBytes` is an instruction as it lies in memory, operand bytes included;
the encoder and the decoder of byte sequences speak of it.
-/

namespace Sys2Proof

/-- The instructions: one constructor per opcode byte, in the table's order, named by mnemonic and
format (R71, R79). -/
inductive Instr where
  -- Load, transfer, store (41_load_store_transfer.md)
  | ldaImm   -- LDA #imm8, R111
  | ldaZp    -- LDA zp8, R111
  | ldaZpX   -- LDA zp8,X, R111
  | ldaAbs   -- LDA abs16, R111
  | ldaAbsX  -- LDA abs16,X, R111
  | ldaAbsY  -- LDA abs16,Y, R111
  | ldaIndX  -- LDA (zp8,X), R111
  | ldaIndY  -- LDA (zp8),Y, R111
  | ldxImm   -- LDX #imm8, R112
  | ldxZp    -- LDX zp8, R112
  | ldxZpY   -- LDX zp8,Y, R112
  | ldxAbs   -- LDX abs16, R112
  | ldxAbsY  -- LDX abs16,Y, R112
  | ldyImm   -- LDY #imm8, R113
  | ldyZp    -- LDY zp8, R113
  | ldyZpX   -- LDY zp8,X, R113
  | ldyAbs   -- LDY abs16, R113
  | ldyAbsX  -- LDY abs16,X, R113
  | tax      -- TAX, R114
  | tay      -- TAY, R115
  | txa      -- TXA, R116
  | tsx      -- TSX, R117
  | txs      -- TXS, R118
  | tya      -- TYA, R119
  | staZp    -- STA zp8, R120
  | staZpX   -- STA zp8,X, R120
  | staAbs   -- STA abs16, R120
  | staAbsX  -- STA abs16,X, R120
  | staAbsY  -- STA abs16,Y, R120
  | staIndX  -- STA (zp8,X), R120
  | staIndY  -- STA (zp8),Y, R120
  | stxZp    -- STX zp8, R121
  | stxZpY   -- STX zp8,Y, R121
  | stxAbs   -- STX abs16, R121
  | styZp    -- STY zp8, R122
  | styZpX   -- STY zp8,X, R122
  | styAbs   -- STY abs16, R122
  -- Arithmetic and logical (42_arithmetic_logic.md)
  | adcImm   -- ADC #imm8, R131
  | adcZp    -- ADC zp8, R131
  | adcZpX   -- ADC zp8,X, R131
  | adcAbs   -- ADC abs16, R131
  | adcAbsX  -- ADC abs16,X, R131
  | adcAbsY  -- ADC abs16,Y, R131
  | adcIndX  -- ADC (zp8,X), R131
  | adcIndY  -- ADC (zp8),Y, R131
  | sbcImm   -- SBC #imm8, R132
  | sbcZp    -- SBC zp8, R132
  | sbcZpX   -- SBC zp8,X, R132
  | sbcAbs   -- SBC abs16, R132
  | sbcAbsX  -- SBC abs16,X, R132
  | sbcAbsY  -- SBC abs16,Y, R132
  | sbcIndX  -- SBC (zp8,X), R132
  | sbcIndY  -- SBC (zp8),Y, R132
  | andImm   -- AND #imm8, R134
  | andZp    -- AND zp8, R134
  | andZpX   -- AND zp8,X, R134
  | andAbs   -- AND abs16, R134
  | andAbsX  -- AND abs16,X, R134
  | andAbsY  -- AND abs16,Y, R134
  | andIndX  -- AND (zp8,X), R134
  | andIndY  -- AND (zp8),Y, R134
  | eorImm   -- EOR #imm8, R135
  | eorZp    -- EOR zp8, R135
  | eorZpX   -- EOR zp8,X, R135
  | eorAbs   -- EOR abs16, R135
  | eorAbsX  -- EOR abs16,X, R135
  | eorAbsY  -- EOR abs16,Y, R135
  | eorIndX  -- EOR (zp8,X), R135
  | eorIndY  -- EOR (zp8),Y, R135
  | oraImm   -- ORA #imm8, R136
  | oraZp    -- ORA zp8, R136
  | oraZpX   -- ORA zp8,X, R136
  | oraAbs   -- ORA abs16, R136
  | oraAbsX  -- ORA abs16,X, R136
  | oraAbsY  -- ORA abs16,Y, R136
  | oraIndX  -- ORA (zp8,X), R136
  | oraIndY  -- ORA (zp8),Y, R136
  -- Shifts and rotates (43_shift_rotate.md)
  | aslAcc   -- ASL A, R141
  | aslZp    -- ASL zp8, R141
  | aslZpX   -- ASL zp8,X, R141
  | aslAbs   -- ASL abs16, R141
  | aslAbsX  -- ASL abs16,X, R141
  | lsrAcc   -- LSR A, R142
  | lsrZp    -- LSR zp8, R142
  | lsrZpX   -- LSR zp8,X, R142
  | lsrAbs   -- LSR abs16, R142
  | lsrAbsX  -- LSR abs16,X, R142
  | rolAcc   -- ROL A, R143
  | rolZp    -- ROL zp8, R143
  | rolZpX   -- ROL zp8,X, R143
  | rolAbs   -- ROL abs16, R143
  | rolAbsX  -- ROL abs16,X, R143
  | rorAcc   -- ROR A, R144
  | rorZp    -- ROR zp8, R144
  | rorZpX   -- ROR zp8,X, R144
  | rorAbs   -- ROR abs16, R144
  | rorAbsX  -- ROR abs16,X, R144
  -- Increment and decrement (44_increment_decrement.md)
  | inx      -- INX, R151
  | iny      -- INY, R152
  | dex      -- DEX, R153
  | dey      -- DEY, R154
  | incZp    -- INC zp8, R155
  | incZpX   -- INC zp8,X, R155
  | incAbs   -- INC abs16, R155
  | incAbsX  -- INC abs16,X, R155
  | decZp    -- DEC zp8, R156
  | decZpX   -- DEC zp8,X, R156
  | decAbs   -- DEC abs16, R156
  | decAbsX  -- DEC abs16,X, R156
  -- Compare and bit test (45_compare_bit.md)
  | cmpImm   -- CMP #imm8, R161
  | cmpZp    -- CMP zp8, R161
  | cmpZpX   -- CMP zp8,X, R161
  | cmpAbs   -- CMP abs16, R161
  | cmpAbsX  -- CMP abs16,X, R161
  | cmpAbsY  -- CMP abs16,Y, R161
  | cmpIndX  -- CMP (zp8,X), R161
  | cmpIndY  -- CMP (zp8),Y, R161
  | cpxImm   -- CPX #imm8, R162
  | cpxZp    -- CPX zp8, R162
  | cpxAbs   -- CPX abs16, R162
  | cpyImm   -- CPY #imm8, R163
  | cpyZp    -- CPY zp8, R163
  | cpyAbs   -- CPY abs16, R163
  | bitZp    -- BIT zp8, R164
  | bitAbs   -- BIT abs16, R164
  -- Branches (46_branch.md)
  | bcc      -- BCC rel8, R171
  | bcs      -- BCS rel8, R172
  | bne      -- BNE rel8, R173
  | beq      -- BEQ rel8, R174
  | bpl      -- BPL rel8, R175
  | bmi      -- BMI rel8, R176
  | bvc      -- BVC rel8, R177
  | bvs      -- BVS rel8, R178
  -- Jumps, calls, returns (47_jump_call_return.md)
  | jmpAbs   -- JMP abs16, R186
  | jmpInd   -- JMP (abs16), R187
  | jsr      -- JSR abs16, R188
  | rts      -- RTS, R189
  | rti      -- RTI, R190
  -- Stack (48_stack.md)
  | pha      -- PHA, R200
  | pla      -- PLA, R201
  | php      -- PHP, R202
  | plp      -- PLP, R203
  -- Flag set and clear, no-op, halt (49_flag_nop_brk.md)
  | clc      -- CLC, R206
  | sec      -- SEC, R207
  | cli      -- CLI, R208
  | sei      -- SEI, R209
  | cld      -- CLD, R210
  | sed      -- SED, R211
  | clv      -- CLV, R212
  | nop      -- NOP, R214
  | brk      -- BRK, R213
  deriving DecidableEq, Repr

/-- The 56 mnemonics (R77). -/
inductive Mnemonic where
  | lda | ldx | ldy | tax | tay | txa | tsx | txs | tya | sta | stx | sty
  | adc | sbc | and | eor | ora
  | asl | lsr | rol | ror
  | inx | iny | dex | dey | inc | dec
  | cmp | cpx | cpy | bit
  | bcc | bcs | bne | beq | bpl | bmi | bvc | bvs
  | jmp | jsr | rts | rti
  | pha | pla | php | plp
  | clc | sec | cli | sei | cld | sed | clv | nop | brk
  deriving DecidableEq, Repr

/-- The fourteen instruction formats: what the operand bytes are (R71). -/
inductive Format where
  | imp   -- no operand byte
  | acc   -- no operand byte; the operand is A
  | imm   -- the operand value
  | zp    -- an address in page zero
  | zpX   -- a base in page zero, X added
  | zpY   -- a base in page zero, Y added
  | abs   -- an address, low byte first
  | absX  -- a base address, X added
  | absY  -- a base address, Y added
  | indX  -- a pointer base in page zero, X added
  | indY  -- a pointer in page zero, Y added to what it holds
  | rel   -- a signed branch offset
  | absJ  -- a jump or call target
  | ind   -- the address of a jump target
  deriving DecidableEq, Repr

/-- The ten addressing modes of the resolver, a closed set (R71, R96). `noneAddressing` means: this
instruction never calls the resolver (R72, 90_conflicts.md C4). -/
inductive AddrMode where
  | immediate | zeroPage | zeroPageX | zeroPageY
  | absolute | absoluteX | absoluteY | indirectX | indirectY
  | noneAddressing
  deriving DecidableEq, Repr

/-- An entry of the opcode table: "immutable record" of code, mnemonic, length, cycles and
addressing mode (R70). `cycles` is the informational count of R270; no rule reads it (R269). -/
structure OpcodeEntry where
  code     : Byte
  mnemonic : Mnemonic
  length   : Nat
  cycles   : Nat
  mode     : AddrMode
  deriving DecidableEq, Repr

/-- An instruction as it lies in memory: its opcode, and its operand bytes in increasing address
order (R70). -/
structure InstrBytes where
  instr    : Instr
  operands : List Byte
  deriving DecidableEq, Repr

end Sys2Proof
end

