-- ==== Sys2Proof/Decode.lean ====
section
/-!
DEFINITION. The instruction decoder (spec 30_encoding.md). Two independent transcriptions of the
opcode map stand here: `Instr.row`, the rows by instruction (R79, R71, R270, opcode_table.json), from
which an instruction is ENCODED, and `opcodeMatrix`, the 16 by 16 matrix of R78, by which a byte is
DECODED. That the two agree is proved per instruction in Laws/PerInstr.lean.
The byte values are the standard 6502 assignment (92_eei_decisions.md D1; assumption log, entry 1).
-/

namespace Sys2Proof

/-- A row of the opcode table as the spec writes it: opcode byte, mnemonic, format, cycles
(R79; cycles R270). -/
structure OpcodeRow where
  code     : Byte
  mnemonic : Mnemonic
  format   : Format
  cycles   : Nat
  deriving DecidableEq, Repr

/-- The opcode table by instruction (R79 for the opcode bytes, R270 for the cycle counts). -/
def Instr.row : Instr → OpcodeRow
  | .ldaImm   => ⟨0xA9#8, .lda, .imm, 2⟩
  | .ldaZp    => ⟨0xA5#8, .lda, .zp, 3⟩
  | .ldaZpX   => ⟨0xB5#8, .lda, .zpX, 4⟩
  | .ldaAbs   => ⟨0xAD#8, .lda, .abs, 4⟩
  | .ldaAbsX  => ⟨0xBD#8, .lda, .absX, 4⟩
  | .ldaAbsY  => ⟨0xB9#8, .lda, .absY, 4⟩
  | .ldaIndX  => ⟨0xA1#8, .lda, .indX, 6⟩
  | .ldaIndY  => ⟨0xB1#8, .lda, .indY, 5⟩
  | .ldxImm   => ⟨0xA2#8, .ldx, .imm, 2⟩
  | .ldxZp    => ⟨0xA6#8, .ldx, .zp, 3⟩
  | .ldxZpY   => ⟨0xB6#8, .ldx, .zpY, 4⟩
  | .ldxAbs   => ⟨0xAE#8, .ldx, .abs, 4⟩
  | .ldxAbsY  => ⟨0xBE#8, .ldx, .absY, 4⟩
  | .ldyImm   => ⟨0xA0#8, .ldy, .imm, 2⟩
  | .ldyZp    => ⟨0xA4#8, .ldy, .zp, 3⟩
  | .ldyZpX   => ⟨0xB4#8, .ldy, .zpX, 4⟩
  | .ldyAbs   => ⟨0xAC#8, .ldy, .abs, 4⟩
  | .ldyAbsX  => ⟨0xBC#8, .ldy, .absX, 4⟩
  | .tax      => ⟨0xAA#8, .tax, .imp, 2⟩
  | .tay      => ⟨0xA8#8, .tay, .imp, 2⟩
  | .txa      => ⟨0x8A#8, .txa, .imp, 2⟩
  | .tsx      => ⟨0xBA#8, .tsx, .imp, 2⟩
  | .txs      => ⟨0x9A#8, .txs, .imp, 2⟩
  | .tya      => ⟨0x98#8, .tya, .imp, 2⟩
  | .staZp    => ⟨0x85#8, .sta, .zp, 3⟩
  | .staZpX   => ⟨0x95#8, .sta, .zpX, 4⟩
  | .staAbs   => ⟨0x8D#8, .sta, .abs, 4⟩
  | .staAbsX  => ⟨0x9D#8, .sta, .absX, 5⟩
  | .staAbsY  => ⟨0x99#8, .sta, .absY, 5⟩
  | .staIndX  => ⟨0x81#8, .sta, .indX, 6⟩
  | .staIndY  => ⟨0x91#8, .sta, .indY, 6⟩
  | .stxZp    => ⟨0x86#8, .stx, .zp, 3⟩
  | .stxZpY   => ⟨0x96#8, .stx, .zpY, 4⟩
  | .stxAbs   => ⟨0x8E#8, .stx, .abs, 4⟩
  | .styZp    => ⟨0x84#8, .sty, .zp, 3⟩
  | .styZpX   => ⟨0x94#8, .sty, .zpX, 4⟩
  | .styAbs   => ⟨0x8C#8, .sty, .abs, 4⟩
  | .adcImm   => ⟨0x69#8, .adc, .imm, 2⟩
  | .adcZp    => ⟨0x65#8, .adc, .zp, 3⟩
  | .adcZpX   => ⟨0x75#8, .adc, .zpX, 4⟩
  | .adcAbs   => ⟨0x6D#8, .adc, .abs, 4⟩
  | .adcAbsX  => ⟨0x7D#8, .adc, .absX, 4⟩
  | .adcAbsY  => ⟨0x79#8, .adc, .absY, 4⟩
  | .adcIndX  => ⟨0x61#8, .adc, .indX, 6⟩
  | .adcIndY  => ⟨0x71#8, .adc, .indY, 5⟩
  | .sbcImm   => ⟨0xE9#8, .sbc, .imm, 2⟩
  | .sbcZp    => ⟨0xE5#8, .sbc, .zp, 3⟩
  | .sbcZpX   => ⟨0xF5#8, .sbc, .zpX, 4⟩
  | .sbcAbs   => ⟨0xED#8, .sbc, .abs, 4⟩
  | .sbcAbsX  => ⟨0xFD#8, .sbc, .absX, 4⟩
  | .sbcAbsY  => ⟨0xF9#8, .sbc, .absY, 4⟩
  | .sbcIndX  => ⟨0xE1#8, .sbc, .indX, 6⟩
  | .sbcIndY  => ⟨0xF1#8, .sbc, .indY, 5⟩
  | .andImm   => ⟨0x29#8, .and, .imm, 2⟩
  | .andZp    => ⟨0x25#8, .and, .zp, 3⟩
  | .andZpX   => ⟨0x35#8, .and, .zpX, 4⟩
  | .andAbs   => ⟨0x2D#8, .and, .abs, 4⟩
  | .andAbsX  => ⟨0x3D#8, .and, .absX, 4⟩
  | .andAbsY  => ⟨0x39#8, .and, .absY, 4⟩
  | .andIndX  => ⟨0x21#8, .and, .indX, 6⟩
  | .andIndY  => ⟨0x31#8, .and, .indY, 5⟩
  | .eorImm   => ⟨0x49#8, .eor, .imm, 2⟩
  | .eorZp    => ⟨0x45#8, .eor, .zp, 3⟩
  | .eorZpX   => ⟨0x55#8, .eor, .zpX, 4⟩
  | .eorAbs   => ⟨0x4D#8, .eor, .abs, 4⟩
  | .eorAbsX  => ⟨0x5D#8, .eor, .absX, 4⟩
  | .eorAbsY  => ⟨0x59#8, .eor, .absY, 4⟩
  | .eorIndX  => ⟨0x41#8, .eor, .indX, 6⟩
  | .eorIndY  => ⟨0x51#8, .eor, .indY, 5⟩
  | .oraImm   => ⟨0x09#8, .ora, .imm, 2⟩
  | .oraZp    => ⟨0x05#8, .ora, .zp, 3⟩
  | .oraZpX   => ⟨0x15#8, .ora, .zpX, 4⟩
  | .oraAbs   => ⟨0x0D#8, .ora, .abs, 4⟩
  | .oraAbsX  => ⟨0x1D#8, .ora, .absX, 4⟩
  | .oraAbsY  => ⟨0x19#8, .ora, .absY, 4⟩
  | .oraIndX  => ⟨0x01#8, .ora, .indX, 6⟩
  | .oraIndY  => ⟨0x11#8, .ora, .indY, 5⟩
  | .aslAcc   => ⟨0x0A#8, .asl, .acc, 2⟩
  | .aslZp    => ⟨0x06#8, .asl, .zp, 5⟩
  | .aslZpX   => ⟨0x16#8, .asl, .zpX, 6⟩
  | .aslAbs   => ⟨0x0E#8, .asl, .abs, 6⟩
  | .aslAbsX  => ⟨0x1E#8, .asl, .absX, 7⟩
  | .lsrAcc   => ⟨0x4A#8, .lsr, .acc, 2⟩
  | .lsrZp    => ⟨0x46#8, .lsr, .zp, 5⟩
  | .lsrZpX   => ⟨0x56#8, .lsr, .zpX, 6⟩
  | .lsrAbs   => ⟨0x4E#8, .lsr, .abs, 6⟩
  | .lsrAbsX  => ⟨0x5E#8, .lsr, .absX, 7⟩
  | .rolAcc   => ⟨0x2A#8, .rol, .acc, 2⟩
  | .rolZp    => ⟨0x26#8, .rol, .zp, 5⟩
  | .rolZpX   => ⟨0x36#8, .rol, .zpX, 6⟩
  | .rolAbs   => ⟨0x2E#8, .rol, .abs, 6⟩
  | .rolAbsX  => ⟨0x3E#8, .rol, .absX, 7⟩
  | .rorAcc   => ⟨0x6A#8, .ror, .acc, 2⟩
  | .rorZp    => ⟨0x66#8, .ror, .zp, 5⟩
  | .rorZpX   => ⟨0x76#8, .ror, .zpX, 6⟩
  | .rorAbs   => ⟨0x6E#8, .ror, .abs, 6⟩
  | .rorAbsX  => ⟨0x7E#8, .ror, .absX, 7⟩
  | .inx      => ⟨0xE8#8, .inx, .imp, 2⟩
  | .iny      => ⟨0xC8#8, .iny, .imp, 2⟩
  | .dex      => ⟨0xCA#8, .dex, .imp, 2⟩
  | .dey      => ⟨0x88#8, .dey, .imp, 2⟩
  | .incZp    => ⟨0xE6#8, .inc, .zp, 5⟩
  | .incZpX   => ⟨0xF6#8, .inc, .zpX, 6⟩
  | .incAbs   => ⟨0xEE#8, .inc, .abs, 6⟩
  | .incAbsX  => ⟨0xFE#8, .inc, .absX, 7⟩
  | .decZp    => ⟨0xC6#8, .dec, .zp, 5⟩
  | .decZpX   => ⟨0xD6#8, .dec, .zpX, 6⟩
  | .decAbs   => ⟨0xCE#8, .dec, .abs, 6⟩
  | .decAbsX  => ⟨0xDE#8, .dec, .absX, 7⟩
  | .cmpImm   => ⟨0xC9#8, .cmp, .imm, 2⟩
  | .cmpZp    => ⟨0xC5#8, .cmp, .zp, 3⟩
  | .cmpZpX   => ⟨0xD5#8, .cmp, .zpX, 4⟩
  | .cmpAbs   => ⟨0xCD#8, .cmp, .abs, 4⟩
  | .cmpAbsX  => ⟨0xDD#8, .cmp, .absX, 4⟩
  | .cmpAbsY  => ⟨0xD9#8, .cmp, .absY, 4⟩
  | .cmpIndX  => ⟨0xC1#8, .cmp, .indX, 6⟩
  | .cmpIndY  => ⟨0xD1#8, .cmp, .indY, 5⟩
  | .cpxImm   => ⟨0xE0#8, .cpx, .imm, 2⟩
  | .cpxZp    => ⟨0xE4#8, .cpx, .zp, 3⟩
  | .cpxAbs   => ⟨0xEC#8, .cpx, .abs, 4⟩
  | .cpyImm   => ⟨0xC0#8, .cpy, .imm, 2⟩
  | .cpyZp    => ⟨0xC4#8, .cpy, .zp, 3⟩
  | .cpyAbs   => ⟨0xCC#8, .cpy, .abs, 4⟩
  | .bitZp    => ⟨0x24#8, .bit, .zp, 3⟩
  | .bitAbs   => ⟨0x2C#8, .bit, .abs, 4⟩
  | .bcc      => ⟨0x90#8, .bcc, .rel, 2⟩
  | .bcs      => ⟨0xB0#8, .bcs, .rel, 2⟩
  | .bne      => ⟨0xD0#8, .bne, .rel, 2⟩
  | .beq      => ⟨0xF0#8, .beq, .rel, 2⟩
  | .bpl      => ⟨0x10#8, .bpl, .rel, 2⟩
  | .bmi      => ⟨0x30#8, .bmi, .rel, 2⟩
  | .bvc      => ⟨0x50#8, .bvc, .rel, 2⟩
  | .bvs      => ⟨0x70#8, .bvs, .rel, 2⟩
  | .jmpAbs   => ⟨0x4C#8, .jmp, .absJ, 3⟩
  | .jmpInd   => ⟨0x6C#8, .jmp, .ind, 5⟩
  | .jsr      => ⟨0x20#8, .jsr, .absJ, 6⟩
  | .rts      => ⟨0x60#8, .rts, .imp, 6⟩
  | .rti      => ⟨0x40#8, .rti, .imp, 6⟩
  | .pha      => ⟨0x48#8, .pha, .imp, 3⟩
  | .pla      => ⟨0x68#8, .pla, .imp, 4⟩
  | .php      => ⟨0x08#8, .php, .imp, 3⟩
  | .plp      => ⟨0x28#8, .plp, .imp, 4⟩
  | .clc      => ⟨0x18#8, .clc, .imp, 2⟩
  | .sec      => ⟨0x38#8, .sec, .imp, 2⟩
  | .cli      => ⟨0x58#8, .cli, .imp, 2⟩
  | .sei      => ⟨0x78#8, .sei, .imp, 2⟩
  | .cld      => ⟨0xD8#8, .cld, .imp, 2⟩
  | .sed      => ⟨0xF8#8, .sed, .imp, 2⟩
  | .clv      => ⟨0xB8#8, .clv, .imp, 2⟩
  | .nop      => ⟨0xEA#8, .nop, .imp, 2⟩
  | .brk      => ⟨0x00#8, .brk, .imp, 7⟩

/-- Instruction length by format, the opcode byte included (R73). -/
def Format.length : Format → Nat
  | .imp | .acc => 1
  | .imm | .zp | .zpX | .zpY | .indX | .indY | .rel => 2
  | .abs | .absX | .absY | .absJ | .ind => 3

/-- The mode tag by format (R71); jumps, calls and branches never call the resolver (R72). -/
def Format.mode : Format → AddrMode
  | .imm => .immediate
  | .zp => .zeroPage
  | .zpX => .zeroPageX
  | .zpY => .zeroPageY
  | .abs => .absolute
  | .absX => .absoluteX
  | .absY => .absoluteY
  | .indX => .indirectX
  | .indY => .indirectY
  | .imp | .acc | .rel | .absJ | .ind => .noneAddressing

/-- The opcode byte (R79). -/
def Instr.opcode (i : Instr) : Byte := i.row.code

/-- The format (R71). -/
def Instr.format (i : Instr) : Format := i.row.format

/-- The length in bytes, the opcode byte included; a function of the opcode alone (R83). -/
def Instr.length (i : Instr) : Nat := i.format.length

/-- The addressing-mode tag (R70, R71). -/
def Instr.mode (i : Instr) : AddrMode := i.format.mode

/-- The opcode table's entry for an instruction (R70). -/
def Instr.entry (i : Instr) : OpcodeEntry where
  code := i.opcode
  mnemonic := i.row.mnemonic
  length := i.length
  cycles := i.row.cycles
  mode := i.mode

/-- Row 0x of the opcode matrix (R78). -/
def matrixRow0 : List (Option Instr) :=
  [some .brk, some .oraIndX, none, none, none, some .oraZp, some .aslZp, none,
   some .php, some .oraImm, some .aslAcc, none, none, some .oraAbs, some .aslAbs, none]

/-- Row 1x of the opcode matrix (R78). -/
def matrixRow1 : List (Option Instr) :=
  [some .bpl, some .oraIndY, none, none, none, some .oraZpX, some .aslZpX, none,
   some .clc, some .oraAbsY, none, none, none, some .oraAbsX, some .aslAbsX, none]

/-- Row 2x of the opcode matrix (R78). -/
def matrixRow2 : List (Option Instr) :=
  [some .jsr, some .andIndX, none, none, some .bitZp, some .andZp, some .rolZp, none,
   some .plp, some .andImm, some .rolAcc, none, some .bitAbs, some .andAbs, some .rolAbs, none]

/-- Row 3x of the opcode matrix (R78). -/
def matrixRow3 : List (Option Instr) :=
  [some .bmi, some .andIndY, none, none, none, some .andZpX, some .rolZpX, none,
   some .sec, some .andAbsY, none, none, none, some .andAbsX, some .rolAbsX, none]

/-- Row 4x of the opcode matrix (R78). -/
def matrixRow4 : List (Option Instr) :=
  [some .rti, some .eorIndX, none, none, none, some .eorZp, some .lsrZp, none,
   some .pha, some .eorImm, some .lsrAcc, none, some .jmpAbs, some .eorAbs, some .lsrAbs, none]

/-- Row 5x of the opcode matrix (R78). -/
def matrixRow5 : List (Option Instr) :=
  [some .bvc, some .eorIndY, none, none, none, some .eorZpX, some .lsrZpX, none,
   some .cli, some .eorAbsY, none, none, none, some .eorAbsX, some .lsrAbsX, none]

/-- Row 6x of the opcode matrix (R78). -/
def matrixRow6 : List (Option Instr) :=
  [some .rts, some .adcIndX, none, none, none, some .adcZp, some .rorZp, none,
   some .pla, some .adcImm, some .rorAcc, none, some .jmpInd, some .adcAbs, some .rorAbs, none]

/-- Row 7x of the opcode matrix (R78). -/
def matrixRow7 : List (Option Instr) :=
  [some .bvs, some .adcIndY, none, none, none, some .adcZpX, some .rorZpX, none,
   some .sei, some .adcAbsY, none, none, none, some .adcAbsX, some .rorAbsX, none]

/-- Row 8x of the opcode matrix (R78). -/
def matrixRow8 : List (Option Instr) :=
  [none, some .staIndX, none, none, some .styZp, some .staZp, some .stxZp, none,
   some .dey, none, some .txa, none, some .styAbs, some .staAbs, some .stxAbs, none]

/-- Row 9x of the opcode matrix (R78). -/
def matrixRow9 : List (Option Instr) :=
  [some .bcc, some .staIndY, none, none, some .styZpX, some .staZpX, some .stxZpY, none,
   some .tya, some .staAbsY, some .txs, none, none, some .staAbsX, none, none]

/-- Row Ax of the opcode matrix (R78). -/
def matrixRowA : List (Option Instr) :=
  [some .ldyImm, some .ldaIndX, some .ldxImm, none, some .ldyZp, some .ldaZp, some .ldxZp, none,
   some .tay, some .ldaImm, some .tax, none, some .ldyAbs, some .ldaAbs, some .ldxAbs, none]

/-- Row Bx of the opcode matrix (R78). -/
def matrixRowB : List (Option Instr) :=
  [some .bcs, some .ldaIndY, none, none, some .ldyZpX, some .ldaZpX, some .ldxZpY, none,
   some .clv, some .ldaAbsY, some .tsx, none, some .ldyAbsX, some .ldaAbsX, some .ldxAbsY, none]

/-- Row Cx of the opcode matrix (R78). -/
def matrixRowC : List (Option Instr) :=
  [some .cpyImm, some .cmpIndX, none, none, some .cpyZp, some .cmpZp, some .decZp, none,
   some .iny, some .cmpImm, some .dex, none, some .cpyAbs, some .cmpAbs, some .decAbs, none]

/-- Row Dx of the opcode matrix (R78). -/
def matrixRowD : List (Option Instr) :=
  [some .bne, some .cmpIndY, none, none, none, some .cmpZpX, some .decZpX, none,
   some .cld, some .cmpAbsY, none, none, none, some .cmpAbsX, some .decAbsX, none]

/-- Row Ex of the opcode matrix (R78). -/
def matrixRowE : List (Option Instr) :=
  [some .cpxImm, some .sbcIndX, none, none, some .cpxZp, some .sbcZp, some .incZp, none,
   some .inx, some .sbcImm, some .nop, none, some .cpxAbs, some .sbcAbs, some .incAbs, none]

/-- Row Fx of the opcode matrix (R78). -/
def matrixRowF : List (Option Instr) :=
  [some .beq, some .sbcIndY, none, none, none, some .sbcZpX, some .incZpX, none,
   some .sed, some .sbcAbsY, none, none, none, some .sbcAbsX, some .incAbsX, none]

/-- The opcode matrix (R78): the row is the high nibble of the opcode byte, the column its low nibble;
`none` marks the 105 unassigned bytes (R81). -/
def opcodeMatrix : List (List (Option Instr)) :=
  [matrixRow0, matrixRow1, matrixRow2, matrixRow3, matrixRow4, matrixRow5, matrixRow6, matrixRow7,
   matrixRow8, matrixRow9, matrixRowA, matrixRowB, matrixRowC, matrixRowD, matrixRowE, matrixRowF]

/-- The table look-up: "lookup(byte) -> OpCode entry or error" (R92). It reads nothing but the byte
(R83); an unassigned byte gives `none`, never a neighbour (R81). -/
def lookup (b : Byte) : Option Instr :=
  ((opcodeMatrix.getD (b.toNat / 16) []).getD (b.toNat % 16) none)

/-- Why a byte sequence is not an instruction. -/
inductive DecodeError where
  | noBytes                        -- there is no opcode byte
  | unrecognizedOpcode (b : Byte)  -- the opcode byte is one of the 105 unassigned ones (R81, R221)
  | truncated (i : Instr)          -- fewer operand bytes than the instruction's length asks for
  deriving DecidableEq, Repr

/-- Decode the instruction at the head of a byte sequence, in memory order: the instruction with its
operand bytes and the bytes after it, or the reason there is none. Total on any bytes (R83); every
value of an operand byte is legal (R82). -/
def decode : List Byte → Except DecodeError (InstrBytes × List Byte)
  | [] => .error .noBytes
  | b :: rest =>
    match lookup b with
    | none => .error (.unrecognizedOpcode b)
    | some i =>
      if rest.length < i.length - 1 then .error (.truncated i)
      else .ok (⟨i, rest.take (i.length - 1)⟩, rest.drop (i.length - 1))

/-- The bytes of an instruction in memory order: the opcode byte at the lowest address, then the
operand bytes, low byte before high byte where they are two (R70, R71). -/
def encode (c : InstrBytes) : List Byte := c.instr.opcode :: c.operands

/-- The bytes of a table word: byte 0 (bits 7 to 0) is the opcode byte at the lowest address, later
bytes count on from it (R71: "as one little-endian number"). Every bit above `nbits` is 0, and three
bytes are the longest instruction. -/
def tableBytes (nbits w : Nat) : List Byte :=
  let v := w % 2 ^ nbits
  [BitVec.ofNat 8 v, BitVec.ofNat 8 (v / 256), BitVec.ofNat 8 (v / 65536)]

/-- The instruction the decoder reads from a table word. -/
def decodeTableWord (nbits w : Nat) : Option Instr :=
  match decode (tableBytes nbits w) with
  | .ok (c, _) => some c.instr
  | .error _ => none

end Sys2Proof
end

