-- ==== Sys2Proof/Config.lean ====
section
/-!
DEFINITION. The parameters the spec fixes (00_scope.md R7) and those it leaves open and then decides
(R8, 92_eei_decisions.md), and the FREE VALUES: what the spec gives no value, as constants without a body.
-/

namespace Sys2Proof.Config

/-- MEM_INIT: what every cell holds when the unit is created, hence what a cell nothing has written
reads as (R7, R41, R63). -/
def memInit : Byte := 0x00#8

/-- MEM_SIZE: the number of memory cells (R7, R41). -/
def memSize : Nat := 65536

/-- PROGRAM_BASE: the first address `load` writes (R7, R257). -/
def programBase : Word := 0x8000#16

/-- LOAD_OVERFLOW: `load` refuses more bytes than this (R257, 92_eei_decisions.md D13). -/
def maxProgram : Nat := 0x8000

/-- RESET_VECTOR: the address of the low byte of the reset vector (R7, R251). -/
def resetVector : Word := 0xFFFC#16

/-- STACK_BASE, as the number of the stack page: the stack is 0x0100 to 0x01FF (R7, R26). -/
def stackPage : Byte := 0x01#8

/-- S_RESET: the stack pointer after reset (R7, R251). -/
def spReset : Byte := 0xFD#8

/-- P_RESET: the status byte after reset, Interrupt-Disable and Break2 set (R7, R29, R251). -/
def pReset : Byte := 0x24#8

/-! ### Free values

PRE_RESET_STATE (R8, R254, 92_eei_decisions.md D11, 93_implementation_defined.md U1): between the
creation of the unit and its first `reset` the registers have no specified value. They are constants
without a body: nothing is provable of them, so whatever is proved holds for every value
(assumption log, entry 3). -/

/-- Register A of a unit that has never been reset: any value (R254). -/
opaque createdA : Byte

/-- Register X of a unit that has never been reset: any value (R254). -/
opaque createdX : Byte

/-- Register Y of a unit that has never been reset: any value (R254). -/
opaque createdY : Byte

/-- Register S of a unit that has never been reset: any value (R254). -/
opaque createdSp : Byte

/-- Register P of a unit that has never been reset: any value (R254). -/
opaque createdP : Byte

/-- Register PC of a unit that has never been reset: any value (R254). -/
opaque createdPc : Word

end Sys2Proof.Config
end

