-- ==== Sys2Proof/Machine/Memory.lean ====
section
/-!
DEFINITION. Memory as state (spec 10_state.md R41) and its accesses (20_memory.md R50 to R58). One flat
space of 65536 byte cells, all readable and writable, none a device, none missing; a cell nothing has
written reads 0x00. It is held as a list of (address, byte) pairs in one canonical form: addresses
strictly rising, and no pair whose byte is what an unlisted address reads as (`Memory.wf`).
-/

namespace Sys2Proof.Machine

/-- The listed cells; every address not listed reads `Config.memInit` (R41, R63). -/
abbrev Memory := List Host.Cell

/-- The memory of a new unit: every cell holds 0x00 (R41, R254). -/
def Memory.empty : Memory := []

/-- The content of the cell of number `a`. -/
def Memory.get : Memory → Nat → Byte
  | [], _ => Config.memInit
  | (k, v) :: m, a => if k = a then v else Memory.get m a

/-- Strike a cell from the list, so that it reads as one nothing has written. -/
def Memory.erase : Memory → Nat → Memory
  | [], _ => []
  | (k, v) :: m, a => if k = a then Memory.erase m a else (k, v) :: Memory.erase m a

/-- List a cell at its place among rising addresses. -/
def Memory.insert : Memory → Nat → Byte → Memory
  | [], a, v => [(a, v)]
  | (k, w) :: m, a, v => if a < k then (a, v) :: (k, w) :: m else (k, w) :: Memory.insert m a v

/-- MemRead(a, 1) (R51): the content of the cell; nothing changes, and it cannot fail. -/
def Memory.read (m : Memory) (a : Word) : Byte := Memory.get m a.toNat

/-- MemWrite(a, 1, v) (R52): the cell `a` holds `v`, no other cell changes, and it cannot fail. -/
def Memory.write (m : Memory) (a : Word) (v : Byte) : Memory :=
  if v = Config.memInit then Memory.erase m a.toNat
  else Memory.insert (Memory.erase m a.toNat) a.toNat v

/-- `word(hi, lo)` (R9): the 16-bit value `hi * 256 + lo`. -/
def word (hi lo : Byte) : Word := hi ++ lo

/-- `w[7:0]` (R9). -/
def lowByte (w : Word) : Byte := w.extractLsb' 0 8

/-- `w[15:8]` (R9). -/
def highByte (w : Word) : Byte := w.extractLsb' 8 8

/-- MemRead(a, 2) (R14, R53): little-endian, the high byte at `a + 1` modulo 65536 (R54). -/
def Memory.readWord (m : Memory) (a : Word) : Word := word (m.read (a + 1#16)) (m.read a)

/-- MemWrite(a, 2, w) (R14, R55): the low byte at `a`, then the high byte at `a + 1`. -/
def Memory.writeWord (m : Memory) (a w : Word) : Memory :=
  (m.write a (lowByte w)).write (a + 1#16) (highByte w)

/-- Bytes written in increasing address order from `a` on, addresses modulo 65536 (R257's loop). -/
def Memory.writeBytes : Memory → Word → List Byte → Memory
  | m, _, [] => m
  | m, a, v :: vs => Memory.writeBytes (m.write a v) (a + 1#16) vs

/-- The canonical form from address `lo` on: addresses at least `lo`, strictly rising and inside the
address space, no byte that an unlisted cell would read. -/
def Memory.wfFrom : Nat → Memory → Bool
  | _, [] => true
  | lo, (k, v) :: m =>
    decide (lo ≤ k) && decide (k < Config.memSize) && decide (v ≠ Config.memInit) &&
      Memory.wfFrom (k + 1) m

/-- The canonical form of a memory. -/
def Memory.wf (m : Memory) : Bool := Memory.wfFrom 0 m

end Sys2Proof.Machine
end

