-- ==== Sys2Proof/Machine/State.lean ====
section
/-!
DEFINITION. The state of one unit (spec 10_state.md R21): "exactly" the registers A, X, Y, S, PC, the
status byte P, the 65536 memory cells, the run state, the error latch, and inside a step the latch pcd.
One field more is the model's own: `wasReset`, which the refusal of `run` before the first `reset`
needs (60_exceptions.md R242). All of it is plain data.
-/

namespace Sys2Proof.Machine

/-- The run-state latch (R43): no run in progress; inside `run`; the last run ended in a fatal
error. -/
inductive RunState where
  | idle | running | faulted
  deriving DecidableEq, Repr

/-- The two fatal errors, and there are no others (R220). -/
inductive FatalError where
  /-- The fetched opcode byte has no entry in the opcode table; the byte is recorded (R221). -/
  | unrecognizedOpcode (b : Byte)
  /-- An effective address was asked for with `NoneAddressing`; no program reaches it (R222). -/
  | unsupportedAddressingMode
  deriving DecidableEq, Repr

/-- The state of one unit (R21). -/
structure State where
  /-- The accumulator A (R22, R23). -/
  a : Byte
  /-- Index register X (R22, R24). -/
  x : Byte
  /-- Index register Y (R22, R25). -/
  y : Byte
  /-- The stack pointer S: the next free stack cell is at 0x0100 + S (R22, R26). -/
  sp : Byte
  /-- The program counter PC (R22, R28). -/
  pc : Word
  /-- The status byte P, bits 0 to 7 C, Z, I, D, B, B2, V, N (R29). -/
  p : Byte
  /-- The 65536 memory cells (R41). -/
  mem : Memory
  /-- The run-state latch (R43). -/
  runState : RunState
  /-- The error latch: which fatal error ended the last run (R44). -/
  error : Option FatalError
  /-- The latch pcd: the value of PC right after the opcode fetch; it means something inside a step
  only (R42). -/
  pcd : Word
  /-- MODEL'S OWN: whether `reset` has been performed since the unit was created. -/
  wasReset : Bool
  deriving DecidableEq, Repr

/-- Why a step stops. Raised by `step` alone, never by an instruction's meaning. -/
inductive Fault where
  /-- Raised by `step` when the run state is FAULTED: the unit makes no step until `reset` (R230,
  R233). It carries the error latch. SAFE: the spec's own end; the fatal error itself was a next
  state, in which the latch was written. -/
  | runAborted (latch : Option FatalError)
  deriving DecidableEq, Repr

/-- Why an instruction or a host command is turned away. No instruction of the table is. -/
inductive Refusal where
  /-- Raised by a refused arm of `exec`: an instruction without a meaning. SAFE; no arm is refused. -/
  | notModelled (mnemonic : String)
  /-- Raised by a host command given while a run is in progress: commands are "accepted only while
  the run state is not RUNNING" (R239, R64). SAFE: nothing changes. -/
  | hostWhileRunning
  /-- Raised by `load` of more than 0x8000 bytes, which "is refused and writes nothing" (R257). SAFE. -/
  | programTooLong (length : Nat)
  /-- Raised by `run` while FAULTED: "it is refused: the unit does nothing and stays FAULTED"
  (R242). SAFE. -/
  | runWhileFaulted
  /-- Raised by `run` before the first `reset`: "a model must require a reset first" (R242,
  93_implementation_defined.md U1). SAFE. -/
  | runBeforeReset
  deriving DecidableEq, Repr

/-- Replace register A; nothing else changes. -/
def State.setA (st : State) (v : Byte) : State := { st with a := v }

/-- Replace register X; nothing else changes. -/
def State.setX (st : State) (v : Byte) : State := { st with x := v }

/-- Replace register Y; nothing else changes. -/
def State.setY (st : State) (v : Byte) : State := { st with y := v }

/-- Replace register S; nothing else changes. -/
def State.setSp (st : State) (v : Byte) : State := { st with sp := v }

/-- Replace PC; nothing else changes. -/
def State.setPc (st : State) (v : Word) : State := { st with pc := v }

/-- Replace the whole status byte P; nothing else changes. -/
def State.setP (st : State) (v : Byte) : State := { st with p := v }

/-- Replace memory; nothing else changes. -/
def State.setMem (st : State) (v : Memory) : State := { st with mem := v }

/-- Replace the run-state latch; nothing else changes. -/
def State.setRunState (st : State) (v : RunState) : State := { st with runState := v }

/-- Replace the error latch; nothing else changes. -/
def State.setError (st : State) (v : Option FatalError) : State := { st with error := v }

/-- Replace the latch pcd; nothing else changes. -/
def State.setPcd (st : State) (v : Word) : State := { st with pcd := v }

/-- Replace the model's own mark that the unit has been reset; nothing else changes. -/
def State.setWasReset (st : State) (v : Bool) : State := { st with wasReset := v }

/-- A unit as created, before any `reset` (R46, R254): memory all zero, IDLE, no error; A, X, Y, S, P and
PC have no specified value and are free values of Config. pcd has no meaning outside a step
(assumption log, entries 3 and 4). -/
def State.created : State where
  a := Config.createdA
  x := Config.createdX
  y := Config.createdY
  sp := Config.createdSp
  pc := Config.createdPc
  p := Config.createdP
  mem := Memory.empty
  runState := .idle
  error := none
  pcd := 0x0000#16
  wasReset := false

/-- The unit right after `reset`, with nothing ever loaded (R46, R251): A, X, Y zero, S 0xFD, P 0x24,
PC the little-endian word at the reset vector as memory holds it (R252, R256: 0x0000 here), memory as
created, IDLE, no error. pcd has no meaning outside a step (assumption log, entry 4). -/
def State.reset : State where
  a := 0x00#8
  x := 0x00#8
  y := 0x00#8
  sp := Config.spReset
  pc := Memory.readWord Memory.empty Config.resetVector
  p := Config.pReset
  mem := Memory.empty
  runState := .idle
  error := none
  pcd := 0x0000#16
  wasReset := true

end Sys2Proof.Machine
end

