-- ==== Sys2Proof/Machine/Flags.lean ====
section
/-!
DEFINITION. The status byte P and every flag computation (spec 10_state.md R29 to R40, 00_scope.md R13), and
the 8-bit ALU as functions on bytes: the adder (42_arithmetic_logic.md R130), the comparison
(45_compare_bit.md R160, R164) and the shifter (43_shift_rotate.md R140 to R144).
-/

namespace Sys2Proof.Machine

/-! ### The status byte -/

/-- The fields of P, in the declared order (R29). -/
inductive Flag where
  | carry | zero | interruptDisable | decimal | brk | break2 | overflow | negative
  deriving DecidableEq, Repr

/-- The bit of P at which a flag stands: Carry is bit 0, Negative bit 7 (R29). -/
def Flag.bit : Flag → Nat
  | .carry => 0
  | .zero => 1
  | .interruptDisable => 2
  | .decimal => 3
  | .brk => 4
  | .break2 => 5
  | .overflow => 6
  | .negative => 7

/-- The byte with a flag's bit set and no other (R29's column "mask"). -/
def Flag.mask (f : Flag) : Byte := 1#8 <<< f.bit

/-- `get(flag)` (R30): the value of `P.f`. -/
def getFlag (p : Byte) (f : Flag) : Bool := p.getLsbD f.bit

/-- `set(flag, b)` (R30): `P.f <- b`, that bit and no other. `unset` is this with false. -/
def setFlag (p : Byte) (f : Flag) (b : Bool) : Byte :=
  if b then p ||| f.mask else p &&& ~~~f.mask

/-- `toggle(flag)` (R30): the block offers it; no instruction uses it. -/
def toggleFlag (p : Byte) (f : Flag) : Byte := p ^^^ f.mask

/-- `setZN(r)` on a status byte (R13): Z says whether `r` is zero, N is its bit 7. -/
def setZN (p r : Byte) : Byte := setFlag (setFlag p .zero (r == 0#8)) .negative r.msb

/-- The load convention (R31): what P becomes when the byte `v` is popped into it, Break cleared and
Break2 set. -/
def statusFromStack (v : Byte) : Byte := (v &&& 0xEF#8) ||| 0x20#8

/-- What PHP stores of P (R31, R202): Break and Break2 forced set in the copy. -/
def statusToStack (p : Byte) : Byte := p ||| 0x30#8

/-! ### The adder (R130) -/

/-- The exact sum of two bytes and a carry, 0 to 511 (R130's `t`). -/
def sumWithCarry (a m : Byte) (c : Bool) : Nat := a.toNat + m.toNat + c.toNat

/-- The truncated result (R130's `r`). -/
def addResult (a m : Byte) (c : Bool) : Byte := BitVec.ofNat 8 (sumWithCarry a m c)

/-- Carry out: the sum is larger than 255 (R130). -/
def addCarry (a m : Byte) (c : Bool) : Bool := decide (255 < sumWithCarry a m c)

/-- Overflow: the operands' signs match and differ from the result's (R130); written to 0 when not
(92_eei_decisions.md D3). -/
def addOverflow (a m : Byte) (c : Bool) : Bool :=
  a.msb == m.msb && (addResult a m c).msb != a.msb

/-- P after `AddWithCarry(m)` (R130): C, V, Z and N are written. -/
def addFlags (p a m : Byte) (c : Bool) : Byte :=
  setZN (setFlag (setFlag p .carry (addCarry a m c)) .overflow (addOverflow a m c)) (addResult a m c)

/-- The byte SBC hands to the adder: the two's-complement negation of the operand, minus 1 (R132,
90_conflicts.md C1). -/
def subtrahend (m : Byte) : Byte := (0#8 - m) - 1#8

/-! ### Comparison and bit test -/

/-- P after `Compare(reg, M)` (R160): C says the operand is at most the register, unsigned; Z and N
are from the wrapped difference; V is not written. -/
def compareFlags (p reg m : Byte) : Byte :=
  setZN (setFlag p .carry (decide (m ≤ reg))) (reg - m)

/-- P after BIT (R164): Z from the AND of A and the operand, N and V from the operand's own bits 7
and 6. -/
def bitTestFlags (p a m : Byte) : Byte :=
  setFlag (setFlag (setFlag p .zero (a &&& m == 0#8)) .negative (m.getLsbD 7)) .overflow (m.getLsbD 6)

/-! ### The shifter: the shifted byte, and the bit shifted out -/

/-- ASL (R141): bit 0 becomes 0, bit 7 goes out; the old carry is discarded. -/
def shiftAsl (v : Byte) (_c : Bool) : Byte × Bool := (v <<< 1, v.getLsbD 7)

/-- LSR (R142): bit 7 becomes 0, bit 0 goes out. -/
def shiftLsr (v : Byte) (_c : Bool) : Byte × Bool := (v >>> 1, v.getLsbD 0)

/-- ROL (R143): bit 0 becomes the previous carry, bit 7 goes out. -/
def shiftRol (v : Byte) (c : Bool) : Byte × Bool :=
  ((v <<< 1) ||| (if c then 0x01#8 else 0x00#8), v.getLsbD 7)

/-- ROR (R144): bit 7 becomes the previous carry, bit 0 goes out. -/
def shiftRor (v : Byte) (c : Bool) : Byte × Bool :=
  ((v >>> 1) ||| (if c then 0x80#8 else 0x00#8), v.getLsbD 0)

/-- P after a shift (R140): C is the bit shifted out, Z and N are from the result. -/
def shiftFlags (p : Byte) (out : Byte × Bool) : Byte := setZN (setFlag p .carry out.2) out.1

end Sys2Proof.Machine
end

