-- ==== Sys2Proof/Machine/Ops.lean ====
section
/-!
DEFINITION. The named operations over registers and memory that the meanings and the step are made of: the
stack primitives (spec 48_stack.md R195 to R199), the parts of the step loop (40_step_and_addressing.md R90
to R94), the end of a run (60_exceptions.md R229, R230) and the return from interrupt.
-/

namespace Sys2Proof.Machine

/-- What a meaning and a step answer. -/
abbrev Result := Host.Outcome State Fault Refusal

/-- MemRead(a, 1) in a state (R14, R51). -/
def State.read (st : State) (a : Word) : Byte := st.mem.read a

/-- MemWrite(a, 1, v) in a state (R14, R52): that cell, no other cell and no register. -/
def State.write (st : State) (a : Word) (v : Byte) : State := st.setMem (st.mem.write a v)

/-- `P.f` of a state (R11). -/
def State.flag (st : State) (f : Flag) : Bool := getFlag st.p f

/-- `zext_16(b)` (R10). -/
def zext16 (b : Byte) : Word := b.setWidth 16

/-- `sext_16(b)` (R10): the 16-bit two's-complement image of a signed byte. -/
def sext16 (b : Byte) : Word := b.signExtend 16

/-! ### The stack -/

/-- The address of the stack cell S names: `0x0100 + S`, never outside the stack page (R26, R195). -/
def stackAddr (sp : Byte) : Word := word Config.stackPage sp

/-- `Push(v)` (R195): write at `0x0100 + S`, then S goes down by 1, modulo 256 (R199). -/
def push (v : Byte) (st : State) : State :=
  (st.write (stackAddr st.sp) v).setSp (st.sp - 1#8)

/-- The byte `Pop()` returns (R196): S goes up first. -/
def popByte (st : State) : Byte := st.read (stackAddr (st.sp + 1#8))

/-- The state after `Pop()` (R196): S is up by 1, modulo 256; the cell is not erased. -/
def popped (st : State) : State := st.setSp (st.sp + 1#8)

/-- `Push16(w)` (R197): the high byte first. -/
def pushWord (w : Word) (st : State) : State := push (lowByte w) (push (highByte w) st)

/-- The word `Pop16()` returns (R198): the low byte first. -/
def popWord (st : State) : Word := word (popByte (popped st)) (popByte st)

/-- The state after `Pop16()` (R198). -/
def poppedWord (st : State) : State := popped (popped st)

/-! ### The parts of a step -/

/-- Step 1's read: the opcode byte at PC (R91). -/
def fetchOpcode (st : State) : Byte := st.read st.pc

/-- Step 1's advance: PC goes up by 1 and is recorded as the pre-dispatch counter value pcd
(R90, R91, R42). -/
def afterFetch (st : State) : State := (st.setPc (st.pc + 1#16)).setPcd (st.pc + 1#16)

/-- The three bytes at PC in increasing address order, addresses modulo 65536: all an instruction
can be (R70, R91). -/
def bytesAtPc (st : State) : List Byte :=
  [st.read st.pc, st.read (st.pc + 1#16), st.read (st.pc + 1#16 + 1#16)]

/-- Step 4 (R94): if the run has not ended and the VALUE of PC is still pcd, PC skips the operand
bytes; if PC differs from pcd it is left alone (90_conflicts.md C2). -/
def skipOperands (length : Nat) (st : State) : State :=
  if st.runState = .running ∧ st.pc = st.pcd then
    st.setPc (st.pc + BitVec.ofNat 16 (length - 1))
  else st

/-! ### The end of a run, and the return from interrupt -/

/-- `raise e`: abort by a fatal error (R230). The run state becomes FAULTED and the error latch is
written; nothing is saved, pushed or vectored, and PC stays where the step has it. -/
def raiseFatal (e : FatalError) (st : State) : State :=
  (st.setRunState .faulted).setError (some e)

/-- `halt`: the normal end of a run (R229). The run state becomes IDLE, nothing else changes. -/
def haltRun (st : State) : State := st.setRunState .idle

/-- RTI's data movement (R190): pop the status byte under the load convention, then pop PC, with no
increment. -/
def returnFromInterrupt (st : State) : State :=
  let afterStatus := (popped st).setP (statusFromStack (popByte st))
  (poppedWord afterStatus).setPc (popWord afterStatus)

end Sys2Proof.Machine
end

