-- ==== Sys2Proof/Machine/Operands.lean ====
section
/-!
DEFINITION. The addressing-mode resolver (spec 40_step_and_addressing.md R96 to R108), all ten modes, and the
forms in which a meaning uses an operand: reading it, storing to it, changing it in place (R107), or, for
the accumulator form of a shift, A (43_shift_rotate.md R140).
-/

namespace Sys2Proof.Machine

/-- The one-byte operand, at PC, which holds pcd during dispatch (R74, R93). -/
def operandByte (st : State) : Byte := st.read st.pc

/-- The two-byte operand, little-endian, at PC and PC + 1 (R75). -/
def operandWord (st : State) : Word := st.mem.readWord st.pc

/-- `ZpRead16(p)` (R14, R104): a little-endian word in page zero, whose high byte's address wraps
inside page zero. -/
def zeroPageWord (p : Byte) (st : State) : Word :=
  word (st.read (zext16 (p + 1#8))) (st.read (zext16 p))

/-- `EA(mode)`: the effective address, for each of the ten modes (R96 to R106). It writes nothing.
`noneAddressing` has none: resolving it is the fatal error of R106. -/
def resolve (mode : AddrMode) (st : State) : Option Word :=
  match mode with
  | .immediate => some st.pc
  | .zeroPage => some (zext16 (operandByte st))
  | .zeroPageX => some (zext16 (operandByte st + st.x))
  | .zeroPageY => some (zext16 (operandByte st + st.y))
  | .absolute => some (operandWord st)
  | .absoluteX => some (operandWord st + zext16 st.x)
  | .absoluteY => some (operandWord st + zext16 st.y)
  | .indirectX => some (zeroPageWord (operandByte st + st.x) st)
  | .indirectY => some (zeroPageWord (operandByte st) st + zext16 st.y)
  | .noneAddressing => none

/-- Go on with the effective address; asking for one that does not exist raises
UnsupportedAddressingMode (R106, R222). No instruction asks for one. -/
def withAddress (mode : AddrMode) (st : State) (effect : Word → State) : Result :=
  match resolve mode st with
  | some ea => .next (effect ea)
  | none => .next (raiseFatal .unsupportedAddressingMode st)

/-- An instruction that reads its operand `M = MemRead(EA(mode), 1)` (R107). -/
def withOperand (mode : AddrMode) (st : State) (effect : Byte → State) : Result :=
  withAddress mode st fun ea => effect (st.read ea)

/-- A store of the byte `v` (R107): `MemWrite(EA(mode), 1, v)`. -/
def storeOperand (mode : AddrMode) (v : Byte) (st : State) : Result :=
  withAddress mode st fun ea => st.write ea v

/-- A read-modify-write instruction (R107): the address is computed once, the byte at it read once and
`change` of it written there; `flags` gives P from the byte read. -/
def modifyOperand (mode : AddrMode) (change : Byte → Byte) (flags : Byte → Byte) (st : State) : Result :=
  withAddress mode st fun ea =>
    (st.write ea (change (st.read ea))).setP (flags (st.read ea))

end Sys2Proof.Machine
end

