-- ==== Sys2Proof/Machine/LoadStore.lean ====
section
/-!
DEFINITION. Loads, transfers and stores (spec 41_load_store_transfer.md R110 to R122): LDA, LDX, LDY, TAX, TAY,
TXA, TSX, TXS, TYA, STA, STX, STY. Loads and transfers other than TXS write Z and N; stores write no flag.
-/

namespace Sys2Proof.Machine

/-- `A <- v; setZN(A)` (R111, R116, R119). -/
def loadA (v : Byte) (st : State) : State := (st.setA v).setP (setZN st.p v)

/-- `X <- v; setZN(X)` (R112, R114, R117). -/
def loadX (v : Byte) (st : State) : State := (st.setX v).setP (setZN st.p v)

/-- `Y <- v; setZN(Y)` (R113, R115). -/
def loadY (v : Byte) (st : State) : State := (st.setY v).setP (setZN st.p v)

/-- LDA by addressing mode (R111). -/
def lda (mode : AddrMode) (st : State) : Result := withOperand mode st fun v => loadA v st

/-- LDX by addressing mode (R112). -/
def ldx (mode : AddrMode) (st : State) : Result := withOperand mode st fun v => loadX v st

/-- LDY by addressing mode (R113). -/
def ldy (mode : AddrMode) (st : State) : Result := withOperand mode st fun v => loadY v st

/-- LDA #imm8, opcode byte 0xA9 (R111). -/
def execLdaImm (s : State) : Result := lda .immediate s

/-- LDA zp8, opcode byte 0xA5 (R111). -/
def execLdaZp (s : State) : Result := lda .zeroPage s

/-- LDA zp8,X, opcode byte 0xB5 (R111). -/
def execLdaZpX (s : State) : Result := lda .zeroPageX s

/-- LDA abs16, opcode byte 0xAD (R111). -/
def execLdaAbs (s : State) : Result := lda .absolute s

/-- LDA abs16,X, opcode byte 0xBD (R111). -/
def execLdaAbsX (s : State) : Result := lda .absoluteX s

/-- LDA abs16,Y, opcode byte 0xB9 (R111). -/
def execLdaAbsY (s : State) : Result := lda .absoluteY s

/-- LDA (zp8,X), opcode byte 0xA1 (R111). -/
def execLdaIndX (s : State) : Result := lda .indirectX s

/-- LDA (zp8),Y, opcode byte 0xB1 (R111). -/
def execLdaIndY (s : State) : Result := lda .indirectY s

/-- LDX #imm8, opcode byte 0xA2 (R112). -/
def execLdxImm (s : State) : Result := ldx .immediate s

/-- LDX zp8, opcode byte 0xA6 (R112). -/
def execLdxZp (s : State) : Result := ldx .zeroPage s

/-- LDX zp8,Y, opcode byte 0xB6 (R112). -/
def execLdxZpY (s : State) : Result := ldx .zeroPageY s

/-- LDX abs16, opcode byte 0xAE (R112). -/
def execLdxAbs (s : State) : Result := ldx .absolute s

/-- LDX abs16,Y, opcode byte 0xBE (R112). -/
def execLdxAbsY (s : State) : Result := ldx .absoluteY s

/-- LDY #imm8, opcode byte 0xA0 (R113). -/
def execLdyImm (s : State) : Result := ldy .immediate s

/-- LDY zp8, opcode byte 0xA4 (R113). -/
def execLdyZp (s : State) : Result := ldy .zeroPage s

/-- LDY zp8,X, opcode byte 0xB4 (R113). -/
def execLdyZpX (s : State) : Result := ldy .zeroPageX s

/-- LDY abs16, opcode byte 0xAC (R113). -/
def execLdyAbs (s : State) : Result := ldy .absolute s

/-- LDY abs16,X, opcode byte 0xBC (R113). -/
def execLdyAbsX (s : State) : Result := ldy .absoluteX s

/-- TAX, opcode byte 0xAA (R114). -/
def execTax (s : State) : Result := .next (loadX s.a s)

/-- TAY, opcode byte 0xA8 (R115). -/
def execTay (s : State) : Result := .next (loadY s.a s)

/-- TXA, opcode byte 0x8A (R116). -/
def execTxa (s : State) : Result := .next (loadA s.x s)

/-- TSX, opcode byte 0xBA (R117). -/
def execTsx (s : State) : Result := .next (loadX s.sp s)

/-- TXS, opcode byte 0x9A (R118). -/
def execTxs (s : State) : Result := .next (s.setSp s.x)

/-- TYA, opcode byte 0x98 (R119). -/
def execTya (s : State) : Result := .next (loadA s.y s)

/-- STA zp8, opcode byte 0x85 (R120). -/
def execStaZp (s : State) : Result := storeOperand .zeroPage s.a s

/-- STA zp8,X, opcode byte 0x95 (R120). -/
def execStaZpX (s : State) : Result := storeOperand .zeroPageX s.a s

/-- STA abs16, opcode byte 0x8D (R120). -/
def execStaAbs (s : State) : Result := storeOperand .absolute s.a s

/-- STA abs16,X, opcode byte 0x9D (R120). -/
def execStaAbsX (s : State) : Result := storeOperand .absoluteX s.a s

/-- STA abs16,Y, opcode byte 0x99 (R120). -/
def execStaAbsY (s : State) : Result := storeOperand .absoluteY s.a s

/-- STA (zp8,X), opcode byte 0x81 (R120). -/
def execStaIndX (s : State) : Result := storeOperand .indirectX s.a s

/-- STA (zp8),Y, opcode byte 0x91 (R120). -/
def execStaIndY (s : State) : Result := storeOperand .indirectY s.a s

/-- STX zp8, opcode byte 0x86 (R121). -/
def execStxZp (s : State) : Result := storeOperand .zeroPage s.x s

/-- STX zp8,Y, opcode byte 0x96 (R121). -/
def execStxZpY (s : State) : Result := storeOperand .zeroPageY s.x s

/-- STX abs16, opcode byte 0x8E (R121). -/
def execStxAbs (s : State) : Result := storeOperand .absolute s.x s

/-- STY zp8, opcode byte 0x84 (R122). -/
def execStyZp (s : State) : Result := storeOperand .zeroPage s.y s

/-- STY zp8,X, opcode byte 0x94 (R122). -/
def execStyZpX (s : State) : Result := storeOperand .zeroPageX s.y s

/-- STY abs16, opcode byte 0x8C (R122). -/
def execStyAbs (s : State) : Result := storeOperand .absolute s.y s

end Sys2Proof.Machine
end

