-- ==== Sys2Proof/Machine/Arith.lean ====
section
/-!
DEFINITION. Arithmetic and logical instructions (spec 42_arithmetic_logic.md R130 to R136): ADC, SBC, AND, EOR,
ORA. Addition and subtraction are binary whatever the Decimal flag holds (10_state.md R32).
-/

namespace Sys2Proof.Machine

/-- `AddWithCarry(m)` (R130), the one addition path: A gets the truncated sum of A, `m` and the carry,
and C, V, Z, N are written. -/
def addWithCarry (m : Byte) (st : State) : State :=
  (st.setA (addResult st.a m (st.flag .carry))).setP (addFlags st.p st.a m (st.flag .carry))

/-- ADC by addressing mode (R131). -/
def adc (mode : AddrMode) (st : State) : Result := withOperand mode st fun m => addWithCarry m st

/-- SBC by addressing mode (R132): the adder is given the complement of the operand. -/
def sbc (mode : AddrMode) (st : State) : Result :=
  withOperand mode st fun m => addWithCarry (subtrahend m) st

/-- AND, EOR and ORA by addressing mode (R133): A is combined bitwise with the operand, then
`setZN(A)`; C and V stay. -/
def logical (op : Byte → Byte → Byte) (mode : AddrMode) (st : State) : Result :=
  withOperand mode st fun m => loadA (op st.a m) st

/-- ADC #imm8, opcode byte 0x69 (R131). -/
def execAdcImm (s : State) : Result := adc .immediate s

/-- ADC zp8, opcode byte 0x65 (R131). -/
def execAdcZp (s : State) : Result := adc .zeroPage s

/-- ADC zp8,X, opcode byte 0x75 (R131). -/
def execAdcZpX (s : State) : Result := adc .zeroPageX s

/-- ADC abs16, opcode byte 0x6D (R131). -/
def execAdcAbs (s : State) : Result := adc .absolute s

/-- ADC abs16,X, opcode byte 0x7D (R131). -/
def execAdcAbsX (s : State) : Result := adc .absoluteX s

/-- ADC abs16,Y, opcode byte 0x79 (R131). -/
def execAdcAbsY (s : State) : Result := adc .absoluteY s

/-- ADC (zp8,X), opcode byte 0x61 (R131). -/
def execAdcIndX (s : State) : Result := adc .indirectX s

/-- ADC (zp8),Y, opcode byte 0x71 (R131). -/
def execAdcIndY (s : State) : Result := adc .indirectY s

/-- SBC #imm8, opcode byte 0xE9 (R132). -/
def execSbcImm (s : State) : Result := sbc .immediate s

/-- SBC zp8, opcode byte 0xE5 (R132). -/
def execSbcZp (s : State) : Result := sbc .zeroPage s

/-- SBC zp8,X, opcode byte 0xF5 (R132). -/
def execSbcZpX (s : State) : Result := sbc .zeroPageX s

/-- SBC abs16, opcode byte 0xED (R132). -/
def execSbcAbs (s : State) : Result := sbc .absolute s

/-- SBC abs16,X, opcode byte 0xFD (R132). -/
def execSbcAbsX (s : State) : Result := sbc .absoluteX s

/-- SBC abs16,Y, opcode byte 0xF9 (R132). -/
def execSbcAbsY (s : State) : Result := sbc .absoluteY s

/-- SBC (zp8,X), opcode byte 0xE1 (R132). -/
def execSbcIndX (s : State) : Result := sbc .indirectX s

/-- SBC (zp8),Y, opcode byte 0xF1 (R132). -/
def execSbcIndY (s : State) : Result := sbc .indirectY s

/-- AND #imm8, opcode byte 0x29 (R134). -/
def execAndImm (s : State) : Result := logical (fun a m => a &&& m) .immediate s

/-- AND zp8, opcode byte 0x25 (R134). -/
def execAndZp (s : State) : Result := logical (fun a m => a &&& m) .zeroPage s

/-- AND zp8,X, opcode byte 0x35 (R134). -/
def execAndZpX (s : State) : Result := logical (fun a m => a &&& m) .zeroPageX s

/-- AND abs16, opcode byte 0x2D (R134). -/
def execAndAbs (s : State) : Result := logical (fun a m => a &&& m) .absolute s

/-- AND abs16,X, opcode byte 0x3D (R134). -/
def execAndAbsX (s : State) : Result := logical (fun a m => a &&& m) .absoluteX s

/-- AND abs16,Y, opcode byte 0x39 (R134). -/
def execAndAbsY (s : State) : Result := logical (fun a m => a &&& m) .absoluteY s

/-- AND (zp8,X), opcode byte 0x21 (R134). -/
def execAndIndX (s : State) : Result := logical (fun a m => a &&& m) .indirectX s

/-- AND (zp8),Y, opcode byte 0x31 (R134). -/
def execAndIndY (s : State) : Result := logical (fun a m => a &&& m) .indirectY s

/-- EOR #imm8, opcode byte 0x49 (R135). -/
def execEorImm (s : State) : Result := logical (fun a m => a ^^^ m) .immediate s

/-- EOR zp8, opcode byte 0x45 (R135). -/
def execEorZp (s : State) : Result := logical (fun a m => a ^^^ m) .zeroPage s

/-- EOR zp8,X, opcode byte 0x55 (R135). -/
def execEorZpX (s : State) : Result := logical (fun a m => a ^^^ m) .zeroPageX s

/-- EOR abs16, opcode byte 0x4D (R135). -/
def execEorAbs (s : State) : Result := logical (fun a m => a ^^^ m) .absolute s

/-- EOR abs16,X, opcode byte 0x5D (R135). -/
def execEorAbsX (s : State) : Result := logical (fun a m => a ^^^ m) .absoluteX s

/-- EOR abs16,Y, opcode byte 0x59 (R135). -/
def execEorAbsY (s : State) : Result := logical (fun a m => a ^^^ m) .absoluteY s

/-- EOR (zp8,X), opcode byte 0x41 (R135). -/
def execEorIndX (s : State) : Result := logical (fun a m => a ^^^ m) .indirectX s

/-- EOR (zp8),Y, opcode byte 0x51 (R135). -/
def execEorIndY (s : State) : Result := logical (fun a m => a ^^^ m) .indirectY s

/-- ORA #imm8, opcode byte 0x09 (R136). -/
def execOraImm (s : State) : Result := logical (fun a m => a ||| m) .immediate s

/-- ORA zp8, opcode byte 0x05 (R136). -/
def execOraZp (s : State) : Result := logical (fun a m => a ||| m) .zeroPage s

/-- ORA zp8,X, opcode byte 0x15 (R136). -/
def execOraZpX (s : State) : Result := logical (fun a m => a ||| m) .zeroPageX s

/-- ORA abs16, opcode byte 0x0D (R136). -/
def execOraAbs (s : State) : Result := logical (fun a m => a ||| m) .absolute s

/-- ORA abs16,X, opcode byte 0x1D (R136). -/
def execOraAbsX (s : State) : Result := logical (fun a m => a ||| m) .absoluteX s

/-- ORA abs16,Y, opcode byte 0x19 (R136). -/
def execOraAbsY (s : State) : Result := logical (fun a m => a ||| m) .absoluteY s

/-- ORA (zp8,X), opcode byte 0x01 (R136). -/
def execOraIndX (s : State) : Result := logical (fun a m => a ||| m) .indirectX s

/-- ORA (zp8),Y, opcode byte 0x11 (R136). -/
def execOraIndY (s : State) : Result := logical (fun a m => a ||| m) .indirectY s

end Sys2Proof.Machine
end

