-- ==== Sys2Proof/Machine/Branch.lean ====
section
/-!
DEFINITION. Conditional branches (spec 46_branch.md R170 to R178). The offset byte is read when the branch is
taken; step 4 of the loop skips it when it is not, and also when the target happens to equal pcd (R94).
-/

namespace Sys2Proof.Machine

/-- `Branch(cond)` (R170): when the condition holds, PC becomes the address after the offset byte plus
the signed offset, modulo 65536. -/
def branch (cond : Bool) (st : State) : Result :=
  .next (if cond then st.setPc (st.pc + 1#16 + sext16 (operandByte st)) else st)

/-- BCC rel8, opcode byte 0x90 (R171). -/
def execBcc (s : State) : Result := branch (!s.flag .carry) s

/-- BCS rel8, opcode byte 0xB0 (R172). -/
def execBcs (s : State) : Result := branch (s.flag .carry) s

/-- BNE rel8, opcode byte 0xD0 (R173). -/
def execBne (s : State) : Result := branch (!s.flag .zero) s

/-- BEQ rel8, opcode byte 0xF0 (R174). -/
def execBeq (s : State) : Result := branch (s.flag .zero) s

/-- BPL rel8, opcode byte 0x10 (R175). -/
def execBpl (s : State) : Result := branch (!s.flag .negative) s

/-- BMI rel8, opcode byte 0x30 (R176). -/
def execBmi (s : State) : Result := branch (s.flag .negative) s

/-- BVC rel8, opcode byte 0x50 (R177). -/
def execBvc (s : State) : Result := branch (!s.flag .overflow) s

/-- BVS rel8, opcode byte 0x70 (R178). -/
def execBvs (s : State) : Result := branch (s.flag .overflow) s

end Sys2Proof.Machine
end

