-- ==== Sys2Proof/Machine/Compare.lean ====
section
/-!
DEFINITION. Compare and bit test (spec 45_compare_bit.md R160 to R164): CMP, CPX, CPY, BIT. They write flags
only.
-/

namespace Sys2Proof.Machine

/-- `Compare(reg, M)` by addressing mode (R160): C, Z, N. -/
def compareWith (reg : Byte) (mode : AddrMode) (st : State) : Result :=
  withOperand mode st fun m => st.setP (compareFlags st.p reg m)

/-- BIT by addressing mode (R164): Z, N, V. -/
def bitTest (mode : AddrMode) (st : State) : Result :=
  withOperand mode st fun m => st.setP (bitTestFlags st.p st.a m)

/-- CMP #imm8, opcode byte 0xC9 (R161). -/
def execCmpImm (s : State) : Result := compareWith s.a .immediate s

/-- CMP zp8, opcode byte 0xC5 (R161). -/
def execCmpZp (s : State) : Result := compareWith s.a .zeroPage s

/-- CMP zp8,X, opcode byte 0xD5 (R161). -/
def execCmpZpX (s : State) : Result := compareWith s.a .zeroPageX s

/-- CMP abs16, opcode byte 0xCD (R161). -/
def execCmpAbs (s : State) : Result := compareWith s.a .absolute s

/-- CMP abs16,X, opcode byte 0xDD (R161). -/
def execCmpAbsX (s : State) : Result := compareWith s.a .absoluteX s

/-- CMP abs16,Y, opcode byte 0xD9 (R161). -/
def execCmpAbsY (s : State) : Result := compareWith s.a .absoluteY s

/-- CMP (zp8,X), opcode byte 0xC1 (R161). -/
def execCmpIndX (s : State) : Result := compareWith s.a .indirectX s

/-- CMP (zp8),Y, opcode byte 0xD1 (R161). -/
def execCmpIndY (s : State) : Result := compareWith s.a .indirectY s

/-- CPX #imm8, opcode byte 0xE0 (R162). -/
def execCpxImm (s : State) : Result := compareWith s.x .immediate s

/-- CPX zp8, opcode byte 0xE4 (R162). -/
def execCpxZp (s : State) : Result := compareWith s.x .zeroPage s

/-- CPX abs16, opcode byte 0xEC (R162). -/
def execCpxAbs (s : State) : Result := compareWith s.x .absolute s

/-- CPY #imm8, opcode byte 0xC0 (R163). -/
def execCpyImm (s : State) : Result := compareWith s.y .immediate s

/-- CPY zp8, opcode byte 0xC4 (R163). -/
def execCpyZp (s : State) : Result := compareWith s.y .zeroPage s

/-- CPY abs16, opcode byte 0xCC (R163). -/
def execCpyAbs (s : State) : Result := compareWith s.y .absolute s

/-- BIT zp8, opcode byte 0x24 (R164). -/
def execBitZp (s : State) : Result := bitTest .zeroPage s

/-- BIT abs16, opcode byte 0x2C (R164). -/
def execBitAbs (s : State) : Result := bitTest .absolute s

end Sys2Proof.Machine
end

