-- ==== Sys2Proof/Machine/FlagControl.lean ====
section
/-!
DEFINITION. Flag set and clear, halt and no-op (spec 49_flag_nop_brk.md R205 to R214): CLC, SEC, CLI, SEI, CLD,
SED, CLV, NOP, BRK.
-/

namespace Sys2Proof.Machine

/-- `P.f <- b` (R205): one bit of P and nothing else. -/
def writeFlag (f : Flag) (b : Bool) (st : State) : Result := .next (st.setP (setFlag st.p f b))

/-- CLC, opcode byte 0x18 (R206). -/
def execClc (s : State) : Result := writeFlag .carry false s

/-- SEC, opcode byte 0x38 (R207). -/
def execSec (s : State) : Result := writeFlag .carry true s

/-- CLI, opcode byte 0x58 (R208). -/
def execCli (s : State) : Result := writeFlag .interruptDisable false s

/-- SEI, opcode byte 0x78 (R209). -/
def execSei (s : State) : Result := writeFlag .interruptDisable true s

/-- CLD, opcode byte 0xD8 (R210). -/
def execCld (s : State) : Result := writeFlag .decimal false s

/-- SED, opcode byte 0xF8 (R211). -/
def execSed (s : State) : Result := writeFlag .decimal true s

/-- CLV, opcode byte 0xB8 (R212). -/
def execClv (s : State) : Result := writeFlag .overflow false s

/-- NOP, opcode byte 0xEA (R214). -/
def execNop (s : State) : Result := .next s

/-- BRK, opcode byte 0x00 (R213). -/
def execBrk (s : State) : Result := .next (haltRun s)

end Sys2Proof.Machine
end

