-- ==== Sys2Proof/Machine/IncDec.lean ====
section
/-!
DEFINITION. Increment and decrement (spec 44_increment_decrement.md R150 to R156): INX, INY, DEX, DEY, INC, DEC.
The result wraps modulo 256; Z and N are written, C and V are not.
-/

namespace Sys2Proof.Machine

/-- INC and DEC by addressing mode (R155, R156): the cell is changed in place, Z and N are from the
byte stored. -/
def countMem (f : Byte → Byte) (mode : AddrMode) (st : State) : Result :=
  modifyOperand mode f (fun v => setZN st.p (f v)) st

/-- INX, opcode byte 0xE8 (R151). -/
def execInx (s : State) : Result := .next (loadX (s.x + 1#8) s)

/-- INY, opcode byte 0xC8 (R152). -/
def execIny (s : State) : Result := .next (loadY (s.y + 1#8) s)

/-- DEX, opcode byte 0xCA (R153). -/
def execDex (s : State) : Result := .next (loadX (s.x - 1#8) s)

/-- DEY, opcode byte 0x88 (R154). -/
def execDey (s : State) : Result := .next (loadY (s.y - 1#8) s)

/-- INC zp8, opcode byte 0xE6 (R155). -/
def execIncZp (s : State) : Result := countMem (fun v => v + 1#8) .zeroPage s

/-- INC zp8,X, opcode byte 0xF6 (R155). -/
def execIncZpX (s : State) : Result := countMem (fun v => v + 1#8) .zeroPageX s

/-- INC abs16, opcode byte 0xEE (R155). -/
def execIncAbs (s : State) : Result := countMem (fun v => v + 1#8) .absolute s

/-- INC abs16,X, opcode byte 0xFE (R155). -/
def execIncAbsX (s : State) : Result := countMem (fun v => v + 1#8) .absoluteX s

/-- DEC zp8, opcode byte 0xC6 (R156). -/
def execDecZp (s : State) : Result := countMem (fun v => v - 1#8) .zeroPage s

/-- DEC zp8,X, opcode byte 0xD6 (R156). -/
def execDecZpX (s : State) : Result := countMem (fun v => v - 1#8) .zeroPageX s

/-- DEC abs16, opcode byte 0xCE (R156). -/
def execDecAbs (s : State) : Result := countMem (fun v => v - 1#8) .absolute s

/-- DEC abs16,X, opcode byte 0xDE (R156). -/
def execDecAbsX (s : State) : Result := countMem (fun v => v - 1#8) .absoluteX s

end Sys2Proof.Machine
end

