-- ==== Sys2Proof/Machine/Jump.lean ====
section
/-!
DEFINITION. Jumps, calls and returns (spec 47_jump_call_return.md R185 to R190): JMP, JSR, RTS, RTI. None calls
the resolver; step 4 leaves the written PC alone unless it equals pcd (R94).
-/

namespace Sys2Proof.Machine

/-- The target JMP indirect reads at a pointer (R187): the high byte comes from the pointer's own page
when the pointer's low byte is 0xFF. -/
def indirectTarget (ptr : Word) (st : State) : Word :=
  word (if lowByte ptr = 0xFF#8 then st.read (ptr &&& 0xFF00#16) else st.read (ptr + 1#16)) (st.read ptr)

/-- JSR (R188): push the address of the instruction's last byte, pcd + 1, and only then read the
target operand (92_eei_decisions.md D5). -/
def jumpToSubroutine (st : State) : State :=
  let pushed := pushWord (st.pc + 1#16) st
  pushed.setPc (operandWord pushed)

/-- RTS (R189): pop a word; PC is that word plus 1. -/
def returnFromSubroutine (st : State) : State := (poppedWord st).setPc (popWord st + 1#16)

/-- JMP abs16, opcode byte 0x4C (R186). -/
def execJmpAbs (s : State) : Result := .next (s.setPc (operandWord s))

/-- JMP (abs16), opcode byte 0x6C (R187). -/
def execJmpInd (s : State) : Result := .next (s.setPc (indirectTarget (operandWord s) s))

/-- JSR abs16, opcode byte 0x20 (R188). -/
def execJsr (s : State) : Result := .next (jumpToSubroutine s)

/-- RTS, opcode byte 0x60 (R189). -/
def execRts (s : State) : Result := .next (returnFromSubroutine s)

/-- RTI, opcode byte 0x40 (R190). -/
def execRti (s : State) : Result := .next (returnFromInterrupt s)

end Sys2Proof.Machine
end

