-- ==== Sys2Proof/Machine/Shift.lean ====
section
/-!
DEFINITION. Shifts and rotates (spec 43_shift_rotate.md R140 to R144): ASL, LSR, ROL, ROR, each on A or on one
memory byte. The bit shifted out becomes C; Z and N are from the result; V stays.
-/

namespace Sys2Proof.Machine

/-- The accumulator form (R140): A is operand and destination; no memory access, no resolver. -/
def shiftA (f : Byte → Bool → Byte × Bool) (st : State) : Result :=
  .next ((st.setA (f st.a (st.flag .carry)).1).setP (shiftFlags st.p (f st.a (st.flag .carry))))

/-- The memory forms (R140): the byte at the effective address is operand and destination; A is
neither read nor written. -/
def shiftMem (f : Byte → Bool → Byte × Bool) (mode : AddrMode) (st : State) : Result :=
  modifyOperand mode (fun v => (f v (st.flag .carry)).1)
    (fun v => shiftFlags st.p (f v (st.flag .carry))) st

/-- ASL A, opcode byte 0x0A (R141). -/
def execAslAcc (s : State) : Result := shiftA shiftAsl s

/-- ASL zp8, opcode byte 0x06 (R141). -/
def execAslZp (s : State) : Result := shiftMem shiftAsl .zeroPage s

/-- ASL zp8,X, opcode byte 0x16 (R141). -/
def execAslZpX (s : State) : Result := shiftMem shiftAsl .zeroPageX s

/-- ASL abs16, opcode byte 0x0E (R141). -/
def execAslAbs (s : State) : Result := shiftMem shiftAsl .absolute s

/-- ASL abs16,X, opcode byte 0x1E (R141). -/
def execAslAbsX (s : State) : Result := shiftMem shiftAsl .absoluteX s

/-- LSR A, opcode byte 0x4A (R142). -/
def execLsrAcc (s : State) : Result := shiftA shiftLsr s

/-- LSR zp8, opcode byte 0x46 (R142). -/
def execLsrZp (s : State) : Result := shiftMem shiftLsr .zeroPage s

/-- LSR zp8,X, opcode byte 0x56 (R142). -/
def execLsrZpX (s : State) : Result := shiftMem shiftLsr .zeroPageX s

/-- LSR abs16, opcode byte 0x4E (R142). -/
def execLsrAbs (s : State) : Result := shiftMem shiftLsr .absolute s

/-- LSR abs16,X, opcode byte 0x5E (R142). -/
def execLsrAbsX (s : State) : Result := shiftMem shiftLsr .absoluteX s

/-- ROL A, opcode byte 0x2A (R143). -/
def execRolAcc (s : State) : Result := shiftA shiftRol s

/-- ROL zp8, opcode byte 0x26 (R143). -/
def execRolZp (s : State) : Result := shiftMem shiftRol .zeroPage s

/-- ROL zp8,X, opcode byte 0x36 (R143). -/
def execRolZpX (s : State) : Result := shiftMem shiftRol .zeroPageX s

/-- ROL abs16, opcode byte 0x2E (R143). -/
def execRolAbs (s : State) : Result := shiftMem shiftRol .absolute s

/-- ROL abs16,X, opcode byte 0x3E (R143). -/
def execRolAbsX (s : State) : Result := shiftMem shiftRol .absoluteX s

/-- ROR A, opcode byte 0x6A (R144). -/
def execRorAcc (s : State) : Result := shiftA shiftRor s

/-- ROR zp8, opcode byte 0x66 (R144). -/
def execRorZp (s : State) : Result := shiftMem shiftRor .zeroPage s

/-- ROR zp8,X, opcode byte 0x76 (R144). -/
def execRorZpX (s : State) : Result := shiftMem shiftRor .zeroPageX s

/-- ROR abs16, opcode byte 0x6E (R144). -/
def execRorAbs (s : State) : Result := shiftMem shiftRor .absolute s

/-- ROR abs16,X, opcode byte 0x7E (R144). -/
def execRorAbsX (s : State) : Result := shiftMem shiftRor .absoluteX s

end Sys2Proof.Machine
end

