-- ==== Sys2Proof/Machine/Stack.lean ====
section
/-!
DEFINITION. The stack instructions (spec 48_stack.md R200 to R203): PHA, PLA, PHP, PLP. They reach memory through
Push and Pop, never through the resolver.
-/

namespace Sys2Proof.Machine

/-- PHA, opcode byte 0x48 (R200). -/
def execPha (s : State) : Result := .next (push s.a s)

/-- PLA, opcode byte 0x68 (R201). -/
def execPla (s : State) : Result := .next (loadA (popByte s) (popped s))

/-- PHP, opcode byte 0x08 (R202). -/
def execPhp (s : State) : Result := .next (push (statusToStack s.p) s)

/-- PLP, opcode byte 0x28 (R203). -/
def execPlp (s : State) : Result := .next ((popped s).setP (statusFromStack (popByte s)))

end Sys2Proof.Machine
end

