-- ==== Sys2Proof/Machine/Dispatch.lean ====
section
/-! DEFINITION. Dispatch, step 3 of the loop (spec 40_step_and_addressing.md R90, R93): one arm per
instruction, each the meaning the rule named in 30_encoding.md R79 gives it. The state it is given is the
one after the opcode fetch: PC holds pcd, the address of the first operand byte. -/

namespace Sys2Proof.Machine

def exec (i : Instr) (s : State) : Host.Outcome State Fault Refusal :=
  match i with
  -- Load, transfer, store (41_load_store_transfer.md)
  | .ldaImm => Sys2Proof.Machine.execLdaImm s
  | .ldaZp => Sys2Proof.Machine.execLdaZp s
  | .ldaZpX => Sys2Proof.Machine.execLdaZpX s
  | .ldaAbs => Sys2Proof.Machine.execLdaAbs s
  | .ldaAbsX => Sys2Proof.Machine.execLdaAbsX s
  | .ldaAbsY => Sys2Proof.Machine.execLdaAbsY s
  | .ldaIndX => Sys2Proof.Machine.execLdaIndX s
  | .ldaIndY => Sys2Proof.Machine.execLdaIndY s
  | .ldxImm => Sys2Proof.Machine.execLdxImm s
  | .ldxZp => Sys2Proof.Machine.execLdxZp s
  | .ldxZpY => Sys2Proof.Machine.execLdxZpY s
  | .ldxAbs => Sys2Proof.Machine.execLdxAbs s
  | .ldxAbsY => Sys2Proof.Machine.execLdxAbsY s
  | .ldyImm => Sys2Proof.Machine.execLdyImm s
  | .ldyZp => Sys2Proof.Machine.execLdyZp s
  | .ldyZpX => Sys2Proof.Machine.execLdyZpX s
  | .ldyAbs => Sys2Proof.Machine.execLdyAbs s
  | .ldyAbsX => Sys2Proof.Machine.execLdyAbsX s
  | .tax => Sys2Proof.Machine.execTax s
  | .tay => Sys2Proof.Machine.execTay s
  | .txa => Sys2Proof.Machine.execTxa s
  | .tsx => Sys2Proof.Machine.execTsx s
  | .txs => Sys2Proof.Machine.execTxs s
  | .tya => Sys2Proof.Machine.execTya s
  | .staZp => Sys2Proof.Machine.execStaZp s
  | .staZpX => Sys2Proof.Machine.execStaZpX s
  | .staAbs => Sys2Proof.Machine.execStaAbs s
  | .staAbsX => Sys2Proof.Machine.execStaAbsX s
  | .staAbsY => Sys2Proof.Machine.execStaAbsY s
  | .staIndX => Sys2Proof.Machine.execStaIndX s
  | .staIndY => Sys2Proof.Machine.execStaIndY s
  | .stxZp => Sys2Proof.Machine.execStxZp s
  | .stxZpY => Sys2Proof.Machine.execStxZpY s
  | .stxAbs => Sys2Proof.Machine.execStxAbs s
  | .styZp => Sys2Proof.Machine.execStyZp s
  | .styZpX => Sys2Proof.Machine.execStyZpX s
  | .styAbs => Sys2Proof.Machine.execStyAbs s
  -- Arithmetic and logical (42_arithmetic_logic.md)
  | .adcImm => Sys2Proof.Machine.execAdcImm s
  | .adcZp => Sys2Proof.Machine.execAdcZp s
  | .adcZpX => Sys2Proof.Machine.execAdcZpX s
  | .adcAbs => Sys2Proof.Machine.execAdcAbs s
  | .adcAbsX => Sys2Proof.Machine.execAdcAbsX s
  | .adcAbsY => Sys2Proof.Machine.execAdcAbsY s
  | .adcIndX => Sys2Proof.Machine.execAdcIndX s
  | .adcIndY => Sys2Proof.Machine.execAdcIndY s
  | .sbcImm => Sys2Proof.Machine.execSbcImm s
  | .sbcZp => Sys2Proof.Machine.execSbcZp s
  | .sbcZpX => Sys2Proof.Machine.execSbcZpX s
  | .sbcAbs => Sys2Proof.Machine.execSbcAbs s
  | .sbcAbsX => Sys2Proof.Machine.execSbcAbsX s
  | .sbcAbsY => Sys2Proof.Machine.execSbcAbsY s
  | .sbcIndX => Sys2Proof.Machine.execSbcIndX s
  | .sbcIndY => Sys2Proof.Machine.execSbcIndY s
  | .andImm => Sys2Proof.Machine.execAndImm s
  | .andZp => Sys2Proof.Machine.execAndZp s
  | .andZpX => Sys2Proof.Machine.execAndZpX s
  | .andAbs => Sys2Proof.Machine.execAndAbs s
  | .andAbsX => Sys2Proof.Machine.execAndAbsX s
  | .andAbsY => Sys2Proof.Machine.execAndAbsY s
  | .andIndX => Sys2Proof.Machine.execAndIndX s
  | .andIndY => Sys2Proof.Machine.execAndIndY s
  | .eorImm => Sys2Proof.Machine.execEorImm s
  | .eorZp => Sys2Proof.Machine.execEorZp s
  | .eorZpX => Sys2Proof.Machine.execEorZpX s
  | .eorAbs => Sys2Proof.Machine.execEorAbs s
  | .eorAbsX => Sys2Proof.Machine.execEorAbsX s
  | .eorAbsY => Sys2Proof.Machine.execEorAbsY s
  | .eorIndX => Sys2Proof.Machine.execEorIndX s
  | .eorIndY => Sys2Proof.Machine.execEorIndY s
  | .oraImm => Sys2Proof.Machine.execOraImm s
  | .oraZp => Sys2Proof.Machine.execOraZp s
  | .oraZpX => Sys2Proof.Machine.execOraZpX s
  | .oraAbs => Sys2Proof.Machine.execOraAbs s
  | .oraAbsX => Sys2Proof.Machine.execOraAbsX s
  | .oraAbsY => Sys2Proof.Machine.execOraAbsY s
  | .oraIndX => Sys2Proof.Machine.execOraIndX s
  | .oraIndY => Sys2Proof.Machine.execOraIndY s
  -- Shifts and rotates (43_shift_rotate.md)
  | .aslAcc => Sys2Proof.Machine.execAslAcc s
  | .aslZp => Sys2Proof.Machine.execAslZp s
  | .aslZpX => Sys2Proof.Machine.execAslZpX s
  | .aslAbs => Sys2Proof.Machine.execAslAbs s
  | .aslAbsX => Sys2Proof.Machine.execAslAbsX s
  | .lsrAcc => Sys2Proof.Machine.execLsrAcc s
  | .lsrZp => Sys2Proof.Machine.execLsrZp s
  | .lsrZpX => Sys2Proof.Machine.execLsrZpX s
  | .lsrAbs => Sys2Proof.Machine.execLsrAbs s
  | .lsrAbsX => Sys2Proof.Machine.execLsrAbsX s
  | .rolAcc => Sys2Proof.Machine.execRolAcc s
  | .rolZp => Sys2Proof.Machine.execRolZp s
  | .rolZpX => Sys2Proof.Machine.execRolZpX s
  | .rolAbs => Sys2Proof.Machine.execRolAbs s
  | .rolAbsX => Sys2Proof.Machine.execRolAbsX s
  | .rorAcc => Sys2Proof.Machine.execRorAcc s
  | .rorZp => Sys2Proof.Machine.execRorZp s
  | .rorZpX => Sys2Proof.Machine.execRorZpX s
  | .rorAbs => Sys2Proof.Machine.execRorAbs s
  | .rorAbsX => Sys2Proof.Machine.execRorAbsX s
  -- Increment and decrement (44_increment_decrement.md)
  | .inx => Sys2Proof.Machine.execInx s
  | .iny => Sys2Proof.Machine.execIny s
  | .dex => Sys2Proof.Machine.execDex s
  | .dey => Sys2Proof.Machine.execDey s
  | .incZp => Sys2Proof.Machine.execIncZp s
  | .incZpX => Sys2Proof.Machine.execIncZpX s
  | .incAbs => Sys2Proof.Machine.execIncAbs s
  | .incAbsX => Sys2Proof.Machine.execIncAbsX s
  | .decZp => Sys2Proof.Machine.execDecZp s
  | .decZpX => Sys2Proof.Machine.execDecZpX s
  | .decAbs => Sys2Proof.Machine.execDecAbs s
  | .decAbsX => Sys2Proof.Machine.execDecAbsX s
  -- Compare and bit test (45_compare_bit.md)
  | .cmpImm => Sys2Proof.Machine.execCmpImm s
  | .cmpZp => Sys2Proof.Machine.execCmpZp s
  | .cmpZpX => Sys2Proof.Machine.execCmpZpX s
  | .cmpAbs => Sys2Proof.Machine.execCmpAbs s
  | .cmpAbsX => Sys2Proof.Machine.execCmpAbsX s
  | .cmpAbsY => Sys2Proof.Machine.execCmpAbsY s
  | .cmpIndX => Sys2Proof.Machine.execCmpIndX s
  | .cmpIndY => Sys2Proof.Machine.execCmpIndY s
  | .cpxImm => Sys2Proof.Machine.execCpxImm s
  | .cpxZp => Sys2Proof.Machine.execCpxZp s
  | .cpxAbs => Sys2Proof.Machine.execCpxAbs s
  | .cpyImm => Sys2Proof.Machine.execCpyImm s
  | .cpyZp => Sys2Proof.Machine.execCpyZp s
  | .cpyAbs => Sys2Proof.Machine.execCpyAbs s
  | .bitZp => Sys2Proof.Machine.execBitZp s
  | .bitAbs => Sys2Proof.Machine.execBitAbs s
  -- Branches (46_branch.md)
  | .bcc => Sys2Proof.Machine.execBcc s
  | .bcs => Sys2Proof.Machine.execBcs s
  | .bne => Sys2Proof.Machine.execBne s
  | .beq => Sys2Proof.Machine.execBeq s
  | .bpl => Sys2Proof.Machine.execBpl s
  | .bmi => Sys2Proof.Machine.execBmi s
  | .bvc => Sys2Proof.Machine.execBvc s
  | .bvs => Sys2Proof.Machine.execBvs s
  -- Jumps, calls, returns (47_jump_call_return.md)
  | .jmpAbs => Sys2Proof.Machine.execJmpAbs s
  | .jmpInd => Sys2Proof.Machine.execJmpInd s
  | .jsr => Sys2Proof.Machine.execJsr s
  | .rts => Sys2Proof.Machine.execRts s
  | .rti => Sys2Proof.Machine.execRti s
  -- Stack (48_stack.md)
  | .pha => Sys2Proof.Machine.execPha s
  | .pla => Sys2Proof.Machine.execPla s
  | .php => Sys2Proof.Machine.execPhp s
  | .plp => Sys2Proof.Machine.execPlp s
  -- Flag set and clear, no-op, halt (49_flag_nop_brk.md)
  | .clc => Sys2Proof.Machine.execClc s
  | .sec => Sys2Proof.Machine.execSec s
  | .cli => Sys2Proof.Machine.execCli s
  | .sei => Sys2Proof.Machine.execSei s
  | .cld => Sys2Proof.Machine.execCld s
  | .sed => Sys2Proof.Machine.execSed s
  | .clv => Sys2Proof.Machine.execClv s
  | .nop => Sys2Proof.Machine.execNop s
  | .brk => Sys2Proof.Machine.execBrk s

end Sys2Proof.Machine
end

