-- ==== Sys2Proof/Machine/Step.lean ====
section
/-!
DEFINITION. The step (spec 40_step_and_addressing.md R90 to R95), gated by the run state (10_state.md R43): the
unit performs the loop body while RUNNING, does nothing while IDLE (60_exceptions.md R239), and makes no step
while FAULTED (R230). Every part of the loop body is an operation of Machine/Ops.lean.
-/

namespace Sys2Proof.Machine

/-- Steps 2 to 4 after the fetch: look the opcode byte up, perform the effect, skip the operand
bytes. -/
def decodeAndRun (op : Byte) (st : State) : Result :=
  match lookup op with
  | none => .next (raiseFatal (.unrecognizedOpcode op) st)
  | some i =>
    match exec i st with
    | .next t => .next (skipOperands i.length t)
    | .fault f => .fault f
    | .refused r => .refused r

/-- One step. RUNNING: the loop body of R90. IDLE: the unit waits for the host and nothing changes
(R239). FAULTED: no step leaves the fault state (R230). -/
def step (st : State) : Host.Outcome State Fault Refusal :=
  match st.runState with
  | .idle => .next st
  | .running => decodeAndRun (fetchOpcode st) (afterFetch st)
  | .faulted => .fault (.runAborted st.error)

/-- The state whose very next step runs a table word's instruction: its bytes stand in memory from PC
on (addresses modulo 65536), and the run state is RUNNING, as `run` makes it (R242); nothing else
differs (assumption log, entry 2). -/
def State.withFetchWord (st : State) (nbits w : Nat) : State :=
  (st.setMem (st.mem.writeBytes st.pc (tableBytes nbits w))).setRunState .running

end Sys2Proof.Machine
end

