-- ==== Sys2Proof/Machine/HostPort.lean ====
section
/-!
DEFINITION. The host interface (spec 60_exceptions.md R239 to R243, 70_reset_and_hazards.md R250 to R258): the six
operations `load`, `reset`, `load_and_run`, `run`, `mem_read`, `mem_write`, taken as function calls
(92_eei_decisions.md D16), and the status output. A command is accepted only while the run state is not
RUNNING (R239, R64); one that is turned away changes nothing. `run` starts a run; `step` carries it on.
-/

namespace Sys2Proof.Machine

/-- A command on the unit's command input (R239). -/
inductive HostCommand where
  | load (bytes : List Byte)
  | reset
  | run
  | memRead (a : Word)
  | memWrite (a : Word) (v : Byte)
  | loadAndRun (bytes : List Byte)
  deriving DecidableEq, Repr

/-- The error codes of the status output (R223; 92_eei_decisions.md D15; assumption log, entry 14): 0 no
error, 1 unrecognized opcode, 2 unsupported addressing mode. -/
def errorCode : Option FatalError → Nat
  | none => 0
  | some (.unrecognizedOpcode _) => 1
  | some .unsupportedAddressingMode => 2

/-- The info field of the status output: the offending byte for code 1 and 0 for code 2 (R223). For code 0,
no error, R223 gives no info; 0x00 there is the model's DESIGN CHOICE (assumption log, entry 15). -/
def errorInfo : Option FatalError → Byte
  | some (.unrecognizedOpcode b) => b
  | _ => 0x00#8

/-- What the status output shows (R239). -/
structure Status where
  runState : RunState
  code     : Nat
  info     : Byte
  deriving DecidableEq, Repr

/-- The status output of a state (R239, R223). -/
def State.status (st : State) : Status := ⟨st.runState, errorCode st.error, errorInfo st.error⟩

/-- `reset()` (R251): registers and P get their reset values, PC the word at the reset vector as memory
holds it now (R252); IDLE, no error; memory is unchanged (R253). -/
def resetUnit (st : State) : State :=
  { a := 0x00#8, x := 0x00#8, y := 0x00#8, sp := Config.spReset, p := Config.pReset
    pc := st.mem.readWord Config.resetVector, mem := st.mem
    runState := .idle, error := none, pcd := st.pcd, wasReset := true }

/-- `load(bytes)` once accepted (R257): the bytes from 0x8000 on, then the reset vector, which a very
long program's own bytes do not survive. -/
def loadProgram (bytes : List Byte) (st : State) : State :=
  st.setMem ((st.mem.writeBytes Config.programBase bytes).writeWord Config.resetVector Config.programBase)

/-- `load(bytes)` in a state that is not RUNNING (R240, R257). -/
def hostLoad (bytes : List Byte) (st : State) : Result :=
  if Config.maxProgram < bytes.length then .refused (.programTooLong bytes.length)
  else .next (loadProgram bytes st)

/-- `run()` in a state that is not RUNNING (R242): refused while FAULTED and before the first reset
(assumption log, entry 3), else the run state becomes RUNNING and nothing else changes, so the run goes
on from the current PC. The loop itself is carried on by `step` (assumption log, entry 11). -/
def hostRun (st : State) : Result :=
  match st.runState with
  | .faulted => .refused .runWhileFaulted
  | _ => if st.wasReset then .next (st.setRunState .running) else .refused .runBeforeReset

/-- `load_and_run(bytes)` in a state that is not RUNNING (R243, R258): load, reset, run, with nothing
between. When the load is refused (R257) the spec does not say whether reset and run still happen;
refusing the whole command, with no reset and no run, is the model's DESIGN CHOICE (assumption log,
entry 16). -/
def hostLoadAndRun (bytes : List Byte) (st : State) : Result :=
  match hostLoad bytes st with
  | .next t => hostRun (resetUnit t)
  | .fault f => .fault f
  | .refused r => .refused r

/-- Carry out a host command. `mem_read` changes nothing; what it answers is `hostMemRead`. -/
def hostCommand (c : HostCommand) (st : State) : Result :=
  match st.runState with
  | .running => .refused .hostWhileRunning
  | _ =>
    match c with
    | .load bytes => hostLoad bytes st
    | .reset => .next (resetUnit st)
    | .run => hostRun st
    | .memRead _ => .next st
    | .memWrite a v => .next (st.write a v)
    | .loadAndRun bytes => hostLoadAndRun bytes st

/-- What `mem_read(a)` answers (R243): the cell's content, or that the command is not accepted. -/
def hostMemRead (a : Word) (st : State) : Except Refusal Byte :=
  match st.runState with
  | .running => .error .hostWhileRunning
  | _ => .ok (st.read a)

end Sys2Proof.Machine
end

