-- ==== Sys2Proof/WellFormed.lean ====
section
/-!
DEFINITION. Well-formed syntax. An `Instr` is well-formed as it stands: it has no operand field, and no
operand byte has a reserved value (spec 30_encoding.md R82). An instruction as it lies in memory is
well-formed when it has the operand bytes its opcode's length asks for (R70, R73, R83).
-/

namespace Sys2Proof

/-- The operand bytes of an instruction in memory are as many as its length says, the opcode byte
aside (R73, R83). -/
def InstrBytes.wellFormed (c : InstrBytes) : Bool := c.operands.length + 1 == c.instr.length

end Sys2Proof
end

