-- ==== Sys2Proof/Safety.lean ====
section
/-!
DEFINITION. The terms the claims use: values and addresses as the spec's notation writes them, what it means
that only certain bits of a byte or one cell of a memory are written, that a form of the opcode table
carries out an effect, and the invariant of a unit in use.
-/

namespace Sys2Proof.Machine

/-- `hi * 256 + lo` as a word (R9). -/
def hiLo (hi lo : Byte) : Word := BitVec.ofNat 16 (hi.toNat * 256 + lo.toNat)

/-- `0x0100 + S` (R26). -/
def stackCell (sp : Byte) : Word := BitVec.ofNat 16 (0x0100 + sp.toNat)

/-- `new` is `old` with the listed bits written to the listed values, every other bit as it was.
Bits are numbered as R29 numbers P: C 0, Z 1, I 2, D 3, B 4, B2 5, V 6, N 7. -/
def BitsWritten (old new : Byte) (ws : List (Nat × Bool)) : Prop :=
  ∀ k, k < 8 → new.getLsbD k = (ws.lookup k).getD (old.getLsbD k)

/-- Memory `new` is `old` with the byte `v` stored at `a` and every other cell as it was. -/
def ByteStored (old new : Memory) (a : Word) (v : Byte) : Prop :=
  new.read a = v ∧ ∀ b : Word, b ≠ a → new.read b = old.read b

/-- The state in which an instruction's effect is performed: PC has passed the opcode byte and pcd
records it (R90 step 1, R93). -/
def inDispatch (s : State) : State :=
  { s with pc := s.pc + 1#16, pcd := s.pc + 1#16 }

/-- A row of the opcode table as a claim writes it out: opcode byte, instruction, length, mode. -/
structure Form where
  code  : Byte
  instr : Instr
  len   : Nat
  mode  : AddrMode

/-- The form stands in the opcode table as written, and carries out an effect, a relation between the
state an instruction is performed in and the state it leaves. From EVERY state `exec` answers a next
state so related. In every RUNNING state whose opcode byte is the form's, `step` performs the effect on
the state in dispatch, after which PC is the address of the next instruction in memory if the value of
PC is still pcd, and is left alone if it is not (R94). What a step leaves in pcd, which has no meaning
between steps (R42), is not said. -/
def Performs (f : Form) (effect : State → State → Prop) : Prop :=
  (lookup f.code = some f.instr ∧ f.instr.length = f.len ∧ f.instr.mode = f.mode) ∧
  (∀ s : State, ∃ t, exec f.instr s = .next t ∧ effect s t) ∧
  (∀ s : State, s.runState = .running → s.mem.read s.pc = f.code →
    ∃ t u, exec f.instr (inDispatch s) = .next t ∧ effect (inDispatch s) t ∧ step s = .next u ∧
      u = { t with pc := if t.pc = s.pc + 1#16 then s.pc + BitVec.ofNat 16 f.len else t.pc
                   pcd := u.pcd })

/-- The invariant of a unit at every instruction boundary: memory is in its canonical form; after a
reset Break is 0 and Break2 is 1 (R31); an error is latched exactly while the unit is FAULTED (R43,
R44); and only a unit that has been reset is RUNNING or FAULTED (R242). -/
structure UnitInv (s : State) : Prop where
  memory : s.mem.wf = true
  status : s.wasReset = true → s.p.getLsbD 4 = false ∧ s.p.getLsbD 5 = true
  latch : s.error ≠ none ↔ s.runState = .faulted
  begun : s.runState ≠ .idle → s.wasReset = true

/-- The states a unit can get into: as created, and by accepted host commands and by steps. -/
inductive Reachable : State → Prop where
  | created : Reachable State.created
  | command {s t : State} (c : HostCommand) : Reachable s → hostCommand c s = .next t → Reachable t
  | step {s t : State} : Reachable s → step s = .next t → Reachable t

end Sys2Proof.Machine
end

