-- ==== Sys2Proof/Certificates/Slice0/Obligations.lean ====
section
/-!
DEFINITION. The statements for the provers, each a `def Obligations.<Name> : Prop`; OBLIGATIONS.json lists them.
They are written in the terms of Safety.lean and of plain arithmetic, not of the meanings' own operations,
but for `resolve`, the effective address, which four statements of their own pin down mode by mode.
-/

open Sys2Proof Sys2Proof.Machine

/-- In every state that is not RUNNING the host command reset is accepted; afterwards A, X, Y are 0, S
is 0xFD, P is 0x24, PC is the little-endian word at 0xFFFC as memory holds it, the run state is
IDLE, the error latch is clear, and memory is what it was.
[R251] -/
def Obligations.ResetRestoresPowerUpState : Prop :=
  ∀ s : State, s.runState ≠ .running →
    ∃ t, hostCommand .reset s = .next t ∧
      t.a = 0x00 ∧ t.x = 0x00 ∧ t.y = 0x00 ∧ t.sp = 0xFD ∧ t.p = 0x24 ∧
      t.pc = hiLo (s.mem.read 0xFFFD) (s.mem.read 0xFFFC) ∧
      t.runState = .idle ∧ t.error = none ∧ t.mem = s.mem

/-- From the state at creation: reset is accepted, run is accepted after it, and the first step of that
run is a BRK at 0x0000 that leaves the unit IDLE with PC = 1, A = X = Y = 0, S = 0xFD, P = 0x24 and
memory as created, whatever the registers held at creation. That the command run and the first step
of the run are two moves is the model's form (entry 11).
[70_reset_and_hazards.md section 1 (R256), 95_test_vectors.md vector H3] -/
def Obligations.NewUnitHaltsAtItsFirstStep : Prop :=
  ∃ r u v, hostCommand .reset State.created = .next r ∧ hostCommand .run r = .next u ∧
    step u = .next v ∧ r.pc = 0x0000 ∧ v.runState = .idle ∧ v.pc = 0x0001 ∧
    v.a = 0x00 ∧ v.x = 0x00 ∧ v.y = 0x00 ∧ v.sp = 0xFD ∧ v.p = 0x24 ∧ v.mem = State.created.mem

/-- In every state that is not RUNNING: a load of at most 0x8000 bytes changes memory only; the reset
vector holds 0x8000; byte k stands at 0x8000 + k unless that cell is one of the two of the vector;
every other cell is as it was. A load of more than 0x8000 bytes is refused.
[R257, R240] -/
def Obligations.LoadPlacesProgramAndVector : Prop :=
  ∀ (s : State) (bytes : List Byte), s.runState ≠ .running →
    (bytes.length ≤ 0x8000 →
      ∃ m, hostCommand (.load bytes) s = .next { s with mem := m } ∧
        m.read 0xFFFC = 0x00 ∧ m.read 0xFFFD = 0x80 ∧
        (∀ (k : Nat) (h : k < bytes.length), k ≠ 0x7FFC → k ≠ 0x7FFD →
          m.read (BitVec.ofNat 16 (0x8000 + k)) = bytes[k]) ∧
        (∀ b : Word, (b.toNat < 0x8000 ∨ 0x8000 + bytes.length ≤ b.toNat) →
          b ≠ 0xFFFC → b ≠ 0xFFFD → m.read b = s.mem.read b)) ∧
    (0x8000 < bytes.length →
      hostCommand (.load bytes) s = .refused (.programTooLong bytes.length))

/-- An IDLE unit that has been reset accepts run, which sets the run state to RUNNING and changes
nothing else, so the run continues from the current PC; a FAULTED unit refuses run; an IDLE unit
that has never been reset refuses run. That run only starts the run, which steps then carry on, is
the model's form: the spec's run() is the whole loop (entry 11). That run before the first reset is
refused is U1's treatment, which the spec leaves to the model (entry 3).
[60_exceptions.md section 7 (R242), 40_step_and_addressing.md section 1 (R95), 92_eei_decisions.md
D14, 93_implementation_defined.md U1] -/
def Obligations.RunStartsOrIsRefused : Prop :=
  ∀ s : State,
    (s.runState = .idle → s.wasReset = true →
      hostCommand .run s = .next { s with runState := .running }) ∧
    (s.runState = .faulted → hostCommand .run s = .refused .runWhileFaulted) ∧
    (s.runState = .idle → s.wasReset = false → hostCommand .run s = .refused .runBeforeReset)

/-- While RUNNING every host command is refused and mem_read answers no byte; in every other run state
mem_read, mem_write and reset are accepted.
[60_exceptions.md section 7 (R239), 20_memory.md section 7 (R64)] -/
def Obligations.CommandsRefusedDuringRun : Prop :=
  ∀ s : State,
    (s.runState = .running →
      (∀ c, hostCommand c s = .refused .hostWhileRunning) ∧
      (∀ b, hostMemRead b s = .error .hostWhileRunning)) ∧
    (s.runState ≠ .running →
      (∃ t, hostCommand .reset s = .next t) ∧
      (∀ b, hostCommand (.memRead b) s = .next s ∧ hostMemRead b s = .ok (s.mem.read b)) ∧
      (∀ b v, ∃ t, hostCommand (.memWrite b v) s = .next t))

/-- Between runs mem_read of any cell answers its content and changes nothing; mem_write stores its byte
in its cell and changes no other cell and nothing else, and a mem_read of that cell then answers the
byte; where load is accepted, reset and then run are accepted after it, and load_and_run ends in the
same state as the three, RUNNING; where load is refused, load_and_run is refused likewise. During a
run both mem_read and mem_write are refused. Two clauses are the model's: run only starts the run,
which steps then carry on (entry 11), and a refused load refuses the whole of load_and_run (entry
16).
[60_exceptions.md section 7 (R239, R243), 70_reset_and_hazards.md section 2 (R258), 20_memory.md
section 7 (R64)] -/
def Obligations.PeekPokeAndLoadAndRun : Prop :=
  ∀ s : State,
    (s.runState = .running → ∀ (b : Word) (v : Byte),
      hostMemRead b s = .error .hostWhileRunning ∧
      hostCommand (.memWrite b v) s = .refused .hostWhileRunning) ∧
    (s.runState ≠ .running →
      (∀ b : Word, hostCommand (.memRead b) s = .next s ∧ hostMemRead b s = .ok (s.mem.read b)) ∧
      (∀ (b : Word) (v : Byte),
        ∃ m, hostCommand (.memWrite b v) s = .next { s with mem := m } ∧ ByteStored s.mem m b v ∧
          hostMemRead b { s with mem := m } = .ok v) ∧
      (∀ (bytes : List Byte) (t : State), hostCommand (.load bytes) s = .next t →
        ∃ u w, hostCommand .reset t = .next u ∧ hostCommand .run u = .next w ∧
          hostCommand (.loadAndRun bytes) s = .next w ∧ w.runState = .running) ∧
      (∀ (bytes : List Byte) (r : Refusal), hostCommand (.load bytes) s = .refused r →
        hostCommand (.loadAndRun bytes) s = .refused r))

/-- UnitInv holds of State.created, whatever its registers hold, and of State.reset.
[10_state.md sections 4 to 7] -/
def Obligations.NewAndResetUnitMeetInvariant : Prop :=
  UnitInv State.created ∧ UnitInv State.reset

/-- From every state that meets UnitInv, every host command that is accepted leaves a state that meets
UnitInv: canonical memory, Break 0 and Break2 1 after a reset, an error latched exactly while
FAULTED, no run of a unit never reset.
[10_state.md sections 4 to 6, 60_exceptions.md section 7, 70_reset_and_hazards.md section 1] -/
def Obligations.HostCommandsKeepInvariant : Prop :=
  ∀ (c : HostCommand) (s t : State), UnitInv s → hostCommand c s = .next t → UnitInv t

/-- From every state that meets UnitInv, if a step answers a next state, that state meets UnitInv. In
particular no instruction ever leaves Break set or Break2 clear in P.
[10_state.md section 4 (R31, R37, R38), 10_state.md section 6 (R43, R44), 90_conflicts.md C7] -/
def Obligations.StepKeepsInvariant : Prop :=
  ∀ s t : State, UnitInv s → step s = .next t → UnitInv t

/-- Whatever sequence of accepted host commands (any program loaded, any cells poked) and steps a unit
goes through from its creation, the state it is in meets UnitInv; so after a reset Break is 0 and
Break2 is 1 at every instruction boundary.
[10_state.md section 4 (R31), 10_state.md section 6 (R43, R44), 20_memory.md section 1] -/
def Obligations.ReachableStatesMeetInvariant : Prop :=
  ∀ s : State, Reachable s →
    s.mem.wf = true ∧ (s.wasReset = true → s.p.getLsbD 4 = false ∧ s.p.getLsbD 5 = true) ∧
    (s.error ≠ none ↔ s.runState = .faulted) ∧ (s.runState ≠ .idle → s.wasReset = true)

/-- For every instruction of the table with any operand bytes, as many as its length says, and any bytes
after it: decoding the encoded bytes gives exactly that instruction, those operand bytes and those
bytes after it.
[30_encoding.md sections 1 to 3, 5] -/
def Obligations.DecodeOfEncodeIsIdentity : Prop :=
  ∀ (c : InstrBytes) (rest : List Byte), c.wellFormed = true →
    decode (encode c ++ rest) = .ok (c, rest)

/-- If a byte sequence decodes to an instruction with some bytes left over, the instruction is well-
formed and its encoding followed by the bytes left over is the sequence: no byte is dropped, and no
instruction has a second encoding.
[30_encoding.md sections 1 to 5] -/
def Obligations.EncodeOfDecodeIsIdentity : Prop :=
  ∀ (bs rest : List Byte) (c : InstrBytes), decode bs = .ok (c, rest) →
    c.wellFormed = true ∧ encode c ++ rest = bs

/-- Sixteen opcode bytes, at least one from each family, written out in binary as the opcode table
writes them, decode to the instructions they stand for; three whole instructions with operand bytes
do too; a JSR with only one operand byte is turned away as truncated, an outcome of the model's
decoder alone, which the machine never meets (entry 7).
[30_encoding.md section 3 (R78, R79), opcode_table.json] -/
def Obligations.SampleOpcodeBytesDecode : Prop :=
  (lookup 0b10110001 = some .ldaIndY ∧ lookup 0b10010110 = some .stxZpY ∧
    lookup 0b01101001 = some .adcImm ∧ lookup 0b11111101 = some .sbcAbsX ∧
    lookup 0b01101010 = some .rorAcc ∧ lookup 0b00111110 = some .rolAbsX ∧
    lookup 0b11000110 = some .decZp ∧ lookup 0b00101100 = some .bitAbs ∧
    lookup 0b11000000 = some .cpyImm ∧ lookup 0b01110000 = some .bvs ∧
    lookup 0b01101100 = some .jmpInd ∧ lookup 0b00100000 = some .jsr ∧
    lookup 0b01000000 = some .rti ∧ lookup 0b00001000 = some .php ∧
    lookup 0b11111000 = some .sed ∧ lookup 0b00000000 = some .brk) ∧
  decode [0b10101001, 0x05, 0x00] = .ok (⟨.ldaImm, [0x05]⟩, [0x00]) ∧
  decode [0b01101100, 0xFF, 0x30] = .ok (⟨.jmpInd, [0xFF, 0x30]⟩, []) ∧
  decode [0b11010000, 0xFB] = .ok (⟨.bne, [0xFB]⟩, []) ∧
  decode [0b00100000, 0x09] = .error (.truncated .jsr)

/-- If a unit is RUNNING and the bytes at PC decode to an instruction, then it is well-formed, its
effect is performed on the state in dispatch (PC past the opcode byte, recorded in pcd) and answers
a next state, and the step answers that state with PC at the next instruction in memory if the run
goes on and PC still has the value pcd, else as the effect left it.
[40_step_and_addressing.md section 1 (R90 to R94)] -/
def Obligations.StepRunsDecodedInstruction : Prop :=
  ∀ (s : State) (c : InstrBytes) (rest : List Byte), s.runState = .running →
    decode (bytesAtPc s) = .ok (c, rest) →
    c.wellFormed = true ∧
    ∃ t u, exec c.instr (inDispatch s) = .next t ∧ step s = .next u ∧
      u = { t with pc := if t.runState = .running ∧ t.pc = s.pc + 1#16 then
                           s.pc + BitVec.ofNat 16 c.instr.length else t.pc
                   pcd := u.pcd }

/-- In every RUNNING state whose byte at PC is one of the 105 unassigned ones, the step answers the next
state in which PC has gone up by 1, the run state is FAULTED and the error latch holds
UnrecognizedOpcode with that byte; A, X, Y, S, P and memory are unchanged; the status output shows
code 1 and the byte. The code is the spec's decision D15 (entry 14); that the fatal error is a next
state is the model's form (entry 5).
[60_exceptions.md section 1 (R221, R223), 30_encoding.md section 4 (R81), 92_eei_decisions.md D15] -/
def Obligations.UnassignedOpcodeAbortsRun : Prop :=
  ∀ s : State, s.runState = .running →
    s.mem.read s.pc ∈ ([0x02, 0x03, 0x04, 0x07, 0x0B, 0x0C, 0x0F, 0x12, 0x13, 0x14, 0x17, 0x1A, 0x1B, 0x1C, 0x1F,
      0x22, 0x23, 0x27, 0x2B, 0x2F, 0x32, 0x33, 0x34, 0x37, 0x3A, 0x3B, 0x3C, 0x3F, 0x42, 0x43,
      0x44, 0x47, 0x4B, 0x4F, 0x52, 0x53, 0x54, 0x57, 0x5A, 0x5B, 0x5C, 0x5F, 0x62, 0x63, 0x64,
      0x67, 0x6B, 0x6F, 0x72, 0x73, 0x74, 0x77, 0x7A, 0x7B, 0x7C, 0x7F, 0x80, 0x82, 0x83, 0x87,
      0x89, 0x8B, 0x8F, 0x92, 0x93, 0x97, 0x9B, 0x9C, 0x9E, 0x9F, 0xA3, 0xA7, 0xAB, 0xAF, 0xB2,
      0xB3, 0xB7, 0xBB, 0xBF, 0xC2, 0xC3, 0xC7, 0xCB, 0xCF, 0xD2, 0xD3, 0xD4, 0xD7, 0xDA, 0xDB,
      0xDC, 0xDF, 0xE2, 0xE3, 0xE7, 0xEB, 0xEF, 0xF2, 0xF3, 0xF4, 0xF7, 0xFA, 0xFB, 0xFC, 0xFF] : List Byte) →
    ∃ u, step s = .next u ∧
      u = { s with pc := s.pc + 1#16
                   pcd := u.pcd
                   runState := .faulted
                   error := some (.unrecognizedOpcode (s.mem.read s.pc)) } ∧
      u.status = ⟨.faulted, 1, s.mem.read s.pc⟩

/-- In every state that is not FAULTED a step answers a next state, and if the unit is IDLE that state
is the same state; in a FAULTED state the step stops with a fault that carries the error latch. No
step is ever refused. That an IDLE unit's step leaves the state unchanged, and that a FAULTED unit's
step answers a fault, are the model's forms of "the unit simply does nothing" and "no step leaves"
(entries 2 and 5).
[60_exceptions.md sections 1, 4, 5, 7 (R224, R230, R239), 10_state.md section 6 (R43)] -/
def Obligations.StepStopsOnlyWhenFaulted : Prop :=
  ∀ s : State,
    (s.runState = .running → ∃ t, step s = .next t) ∧
    (s.runState = .idle → step s = .next s) ∧
    (s.runState = .faulted → step s = .fault (.runAborted s.error))

/-- For every instruction and every state, exec answers a next state in which the error latch is as it
was and the run state is as it was, except that BRK makes it IDLE. So UnsupportedAddressingMode is
never raised by an instruction.
[R224] -/
def Obligations.NoInstructionEffectFails : Prop :=
  ∀ (i : Instr) (s : State), ∃ t, exec i s = .next t ∧ t.error = s.error ∧
    t.runState = (if i = .brk then .idle else s.runState)

/-- In every RUNNING state the step answers a next state; the unit is then IDLE exactly when the opcode
byte was 0x00, FAULTED exactly when the byte was unassigned, and RUNNING otherwise. That the fatal
error is a next state is the model's form (entry 5).
[70_reset_and_hazards.md section 3 (R267), 40_step_and_addressing.md section 1 (R95)] -/
def Obligations.RunEndsOnlyAtBrkOrUnassignedByte : Prop :=
  ∀ s : State, s.runState = .running →
    ∃ t, step s = .next t ∧
      (t.runState = .idle ↔ s.mem.read s.pc = 0x00) ∧
      (t.runState = .faulted ↔ lookup (s.mem.read s.pc) = none) ∧
      (t.runState = .running ↔ s.mem.read s.pc ≠ 0x00 ∧ lookup (s.mem.read s.pc) ≠ none)

/-- In every RUNNING state whose opcode byte is an instruction other than the eight branches, JMP, JSR,
RTS and RTI, the step answers a next state whose PC is the address of the opcode byte plus the
length of the instruction.
[40_step_and_addressing.md section 1 (R94), 10_state.md section 3 (R28)] -/
def Obligations.OrdinaryStepAdvancesPcByLength : Prop :=
  ∀ (s : State) (i : Instr), s.runState = .running → lookup (s.mem.read s.pc) = some i →
    i ∉ ([.bcc, .bcs, .bne, .beq, .bpl, .bmi, .bvc, .bvs, .jmpAbs, .jmpInd, .jsr, .rts, .rti] : List Instr) →
    ∃ u, step s = .next u ∧ u.pc = s.pc + BitVec.ofNat 16 i.length

/-- A taken branch with offset 0xFF ends at pc0 + 2; JMP, JMP indirect and JSR whose target is pc0 + 1
end at pc0 + 3, JSR with its return address pushed all the same. For JSR the stack cells it writes
are assumed not to be its own operand bytes (R263). That step 4 compares values is the spec's choice
between two readings (D2, C2; entry 13).
[70_reset_and_hazards.md section 3 (R261), 40_step_and_addressing.md section 1 (R94),
90_conflicts.md C2] -/
def Obligations.TargetEqualToPcdFallsThrough : Prop :=
  ∀ s : State, s.runState = .running →
    (∀ b ∈ ([(0x90, 0, false), (0xB0, 0, true), (0xD0, 1, false), (0xF0, 1, true), (0x10, 7, false),
        (0x30, 7, true), (0x50, 6, false), (0x70, 6, true)] : List (Byte × Nat × Bool)),
      s.mem.read s.pc = b.1 → s.p.getLsbD b.2.1 = b.2.2 → s.mem.read (s.pc + 1#16) = 0xFF →
      ∃ u, step s = .next u ∧ u = { s with pc := s.pc + 2#16, pcd := u.pcd }) ∧
    (s.mem.read s.pc = 0x4C →
      hiLo (s.mem.read (s.pc + 2#16)) (s.mem.read (s.pc + 1#16)) = s.pc + 1#16 →
      ∃ u, step s = .next u ∧ u = { s with pc := s.pc + 3#16, pcd := u.pcd }) ∧
    (∀ ptr : Word, s.mem.read s.pc = 0x6C →
      hiLo (s.mem.read (s.pc + 2#16)) (s.mem.read (s.pc + 1#16)) = ptr → ptr.toNat % 256 ≠ 0xFF →
      hiLo (s.mem.read (ptr + 1#16)) (s.mem.read ptr) = s.pc + 1#16 →
      ∃ u, step s = .next u ∧ u = { s with pc := s.pc + 3#16, pcd := u.pcd }) ∧
    (s.mem.read s.pc = 0x20 →
      hiLo (s.mem.read (s.pc + 2#16)) (s.mem.read (s.pc + 1#16)) = s.pc + 1#16 →
      (∀ c ∈ [stackCell s.sp, stackCell (s.sp - 1#8)], c ≠ s.pc + 1#16 ∧ c ≠ s.pc + 2#16) →
      ∃ u, step s = .next u ∧ u.pc = s.pc + 3#16 ∧ u.sp = s.sp - 2#8 ∧
        hiLo (u.mem.read (stackCell s.sp)) (u.mem.read (stackCell (s.sp - 1#8))) = s.pc + 2#16)

/-- Immediate is PC itself; ZeroPage is the operand byte; Absolute is the little-endian operand word;
Absolute_X and Absolute_Y add X or Y to it modulo 65536.
[R97, R98, R101, R102, R103] -/
def Obligations.DirectModesAddressOperand : Prop :=
  ∀ s : State,
    resolve .immediate s = some s.pc ∧
    resolve .zeroPage s = some (BitVec.ofNat 16 (s.mem.read s.pc).toNat) ∧
    resolve .absolute s = some (hiLo (s.mem.read (s.pc + 1#16)) (s.mem.read s.pc)) ∧
    (∃ ea, resolve .absoluteX s = some ea ∧ ea.toNat =
      ((s.mem.read (s.pc + 1#16)).toNat * 256 + (s.mem.read s.pc).toNat + s.x.toNat) % 65536) ∧
    (∃ ea, resolve .absoluteY s = some ea ∧ ea.toNat =
      ((s.mem.read (s.pc + 1#16)).toNat * 256 + (s.mem.read s.pc).toNat + s.y.toNat) % 65536)

/-- The effective address of ZeroPage_X is the operand byte plus X modulo 256, that of ZeroPage_Y the
operand byte plus Y modulo 256; both are below 0x0100.
[R99, R100] -/
def Obligations.ZeroPageIndexingStaysInPageZero : Prop :=
  ∀ s : State,
    (∃ ea, resolve .zeroPageX s = some ea ∧
      ea.toNat = ((s.mem.read s.pc).toNat + s.x.toNat) % 256 ∧ ea.toNat < 0x0100) ∧
    (∃ ea, resolve .zeroPageY s = some ea ∧
      ea.toNat = ((s.mem.read s.pc).toNat + s.y.toNat) % 256 ∧ ea.toNat < 0x0100)

/-- With p the operand byte plus X modulo 256, Indirect_X is the little-endian word at p, its high byte
from p + 1 modulo 256. With p the operand byte, Indirect_Y is the word so read plus Y modulo 65536.
[R104, R105] -/
def Obligations.IndirectModesWrapPointerInPageZero : Prop :=
  ∀ s : State,
    (∃ ea, resolve .indirectX s = some ea ∧
      let p := ((s.mem.read s.pc).toNat + s.x.toNat) % 256
      ea = hiLo (s.mem.read (BitVec.ofNat 16 ((p + 1) % 256))) (s.mem.read (BitVec.ofNat 16 p))) ∧
    (∃ ea, resolve .indirectY s = some ea ∧
      let p := (s.mem.read s.pc).toNat
      ea.toNat = ((s.mem.read (BitVec.ofNat 16 ((p + 1) % 256))).toNat * 256 +
        (s.mem.read (BitVec.ofNat 16 p)).toNat + s.y.toNat) % 65536)

/-- Asking for an effective address with NoneAddressing leaves the unit FAULTED with
UnsupportedAddressingMode latched (status code 2, info 0) and nothing else changed, whatever the
effect would have been; every other mode gives an address in every state. Keeping the outcome, which
no instruction reaches, is the model's choice (entry 12; R222 lets a model omit it); that it is a
next state is the model's form (entry 5); the code and the info are the spec's decision D15 (entry
14).
[40_step_and_addressing.md section 2 (R96, R106), 60_exceptions.md section 1 (R222, R223, R225),
92_eei_decisions.md D15] -/
def Obligations.NoneAddressingIsFatalToResolve : Prop :=
  (∀ (s : State) (k : Word → State), ∃ t, withAddress .noneAddressing s k = .next t ∧
    t = { s with runState := .faulted, error := some .unsupportedAddressingMode } ∧
    t.status = ⟨.faulted, 2, 0x00⟩) ∧
  (∀ (m : AddrMode) (s : State), m ≠ .noneAddressing → ∃ ea, resolve m s = some ea)

/-- In every form, LDA answers a next state that differs in A (the byte at the effective address of its
mode) and in P (Z says whether the byte is zero, N is its bit 7, every other bit unchanged) only; a
step then moves PC by the length.
[R111] -/
def Obligations.LoadACopiesOperand : Prop :=
  ∀ f ∈ ([⟨0xA9, .ldaImm, 2, .immediate⟩, ⟨0xA5, .ldaZp, 2, .zeroPage⟩,
      ⟨0xB5, .ldaZpX, 2, .zeroPageX⟩, ⟨0xAD, .ldaAbs, 3, .absolute⟩,
      ⟨0xBD, .ldaAbsX, 3, .absoluteX⟩, ⟨0xB9, .ldaAbsY, 3, .absoluteY⟩,
      ⟨0xA1, .ldaIndX, 2, .indirectX⟩, ⟨0xB1, .ldaIndY, 2, .indirectY⟩] : List Form),
    Performs f fun s t => ∃ ea, resolve f.mode s = some ea ∧
      t = { s with a := s.mem.read ea, p := t.p } ∧
      BitsWritten s.p t.p [(1, s.mem.read ea == 0#8), (7, (s.mem.read ea).msb)]

/-- In every form, LDX answers a next state that differs in X (the byte at the effective address of its
mode) and in P (Z says whether the byte is zero, N is its bit 7, every other bit unchanged) only; a
step then moves PC by the length.
[R112] -/
def Obligations.LoadXCopiesOperand : Prop :=
  ∀ f ∈ ([⟨0xA2, .ldxImm, 2, .immediate⟩, ⟨0xA6, .ldxZp, 2, .zeroPage⟩,
      ⟨0xB6, .ldxZpY, 2, .zeroPageY⟩, ⟨0xAE, .ldxAbs, 3, .absolute⟩,
      ⟨0xBE, .ldxAbsY, 3, .absoluteY⟩] : List Form),
    Performs f fun s t => ∃ ea, resolve f.mode s = some ea ∧
      t = { s with x := s.mem.read ea, p := t.p } ∧
      BitsWritten s.p t.p [(1, s.mem.read ea == 0#8), (7, (s.mem.read ea).msb)]

/-- In every form, LDY answers a next state that differs in Y (the byte at the effective address of its
mode) and in P (Z says whether the byte is zero, N is its bit 7, every other bit unchanged) only; a
step then moves PC by the length.
[R113] -/
def Obligations.LoadYCopiesOperand : Prop :=
  ∀ f ∈ ([⟨0xA0, .ldyImm, 2, .immediate⟩, ⟨0xA4, .ldyZp, 2, .zeroPage⟩,
      ⟨0xB4, .ldyZpX, 2, .zeroPageX⟩, ⟨0xAC, .ldyAbs, 3, .absolute⟩,
      ⟨0xBC, .ldyAbsX, 3, .absoluteX⟩] : List Form),
    Performs f fun s t => ∃ ea, resolve f.mode s = some ea ∧
      t = { s with y := s.mem.read ea, p := t.p } ∧
      BitsWritten s.p t.p [(1, s.mem.read ea == 0#8), (7, (s.mem.read ea).msb)]

/-- Each transfer answers a next state in which the destination holds the source; Z and N are from the
copied byte and every other bit of P is unchanged, but TXS leaves all of P alone; nothing else
changes; a step moves PC by 1.
[R114, R115, R116, R117, R118, R119] -/
def Obligations.TransfersCopyRegister : Prop :=
  Performs ⟨0xAA, .tax, 1, .noneAddressing⟩ (fun s t =>
    t = { s with x := s.a, p := t.p } ∧ BitsWritten s.p t.p [(1, s.a == 0#8), (7, s.a.msb)]) ∧
  Performs ⟨0xA8, .tay, 1, .noneAddressing⟩ (fun s t =>
    t = { s with y := s.a, p := t.p } ∧ BitsWritten s.p t.p [(1, s.a == 0#8), (7, s.a.msb)]) ∧
  Performs ⟨0x8A, .txa, 1, .noneAddressing⟩ (fun s t =>
    t = { s with a := s.x, p := t.p } ∧ BitsWritten s.p t.p [(1, s.x == 0#8), (7, s.x.msb)]) ∧
  Performs ⟨0xBA, .tsx, 1, .noneAddressing⟩ (fun s t =>
    t = { s with x := s.sp, p := t.p } ∧ BitsWritten s.p t.p [(1, s.sp == 0#8), (7, s.sp.msb)]) ∧
  Performs ⟨0x98, .tya, 1, .noneAddressing⟩ (fun s t =>
    t = { s with a := s.y, p := t.p } ∧ BitsWritten s.p t.p [(1, s.y == 0#8), (7, s.y.msb)]) ∧
  Performs ⟨0x9A, .txs, 1, .noneAddressing⟩ (fun s t => t = { s with sp := s.x })

/-- In every form the store answers a next state in which the cell at the effective address of the
form's mode holds A, X or Y, every other cell reads as before, and no register and no bit of P has
changed; a step then moves PC by the length.
[R120, R121, R122] -/
def Obligations.StoresWriteOneByte : Prop :=
  (∀ f ∈ ([⟨0x85, .staZp, 2, .zeroPage⟩, ⟨0x95, .staZpX, 2, .zeroPageX⟩,
        ⟨0x8D, .staAbs, 3, .absolute⟩, ⟨0x9D, .staAbsX, 3, .absoluteX⟩,
        ⟨0x99, .staAbsY, 3, .absoluteY⟩, ⟨0x81, .staIndX, 2, .indirectX⟩,
        ⟨0x91, .staIndY, 2, .indirectY⟩] : List Form),
    Performs f fun s t => ∃ ea, resolve f.mode s = some ea ∧
      t = { s with mem := t.mem } ∧ ByteStored s.mem t.mem ea s.a) ∧
  (∀ f ∈ ([⟨0x86, .stxZp, 2, .zeroPage⟩, ⟨0x96, .stxZpY, 2, .zeroPageY⟩,
        ⟨0x8E, .stxAbs, 3, .absolute⟩] : List Form),
    Performs f fun s t => ∃ ea, resolve f.mode s = some ea ∧
      t = { s with mem := t.mem } ∧ ByteStored s.mem t.mem ea s.x) ∧
  (∀ f ∈ ([⟨0x84, .styZp, 2, .zeroPage⟩, ⟨0x94, .styZpX, 2, .zeroPageX⟩,
        ⟨0x8C, .styAbs, 3, .absolute⟩] : List Form),
    Performs f fun s t => ∃ ea, resolve f.mode s = some ea ∧
      t = { s with mem := t.mem } ∧ ByteStored s.mem t.mem ea s.y)

/-- In every form ADC answers a next state in which A is the sum of A, the operand and C modulo 256; C
says whether the sum exceeds 255, V whether A and operand have one sign and the result the other, Z
and N are from the result; I, D, B, B2 and all else are unchanged, and D plays no part.
[R130, R131] -/
def Obligations.AdcAddsOperandAndCarry : Prop :=
  ∀ f ∈ ([⟨0x69, .adcImm, 2, .immediate⟩, ⟨0x65, .adcZp, 2, .zeroPage⟩,
      ⟨0x75, .adcZpX, 2, .zeroPageX⟩, ⟨0x6D, .adcAbs, 3, .absolute⟩,
      ⟨0x7D, .adcAbsX, 3, .absoluteX⟩, ⟨0x79, .adcAbsY, 3, .absoluteY⟩,
      ⟨0x61, .adcIndX, 2, .indirectX⟩, ⟨0x71, .adcIndY, 2, .indirectY⟩] : List Form),
    Performs f fun s t => ∃ ea, resolve f.mode s = some ea ∧
      let m : Byte := s.mem.read ea
      let sum : Nat := s.a.toNat + m.toNat + (s.p.getLsbD 0).toNat
      let r : Byte := BitVec.ofNat 8 (sum % 256)
      t = { s with a := r, p := t.p } ∧
      BitsWritten s.p t.p [(0, decide (255 < sum)), (1, r == 0#8),
        (6, s.a.msb == m.msb && r.msb != s.a.msb), (7, r.msb)]

/-- In every form SBC does what ADC does with 255 minus the operand in the operand's place: A becomes A
- M - (1 - C) modulo 256, C is an inverted borrow, V uses the sign of the complement; I, D, B, B2
and all else are unchanged.
[R132] -/
def Obligations.SbcAddsComplementAndCarry : Prop :=
  ∀ f ∈ ([⟨0xE9, .sbcImm, 2, .immediate⟩, ⟨0xE5, .sbcZp, 2, .zeroPage⟩,
      ⟨0xF5, .sbcZpX, 2, .zeroPageX⟩, ⟨0xED, .sbcAbs, 3, .absolute⟩,
      ⟨0xFD, .sbcAbsX, 3, .absoluteX⟩, ⟨0xF9, .sbcAbsY, 3, .absoluteY⟩,
      ⟨0xE1, .sbcIndX, 2, .indirectX⟩, ⟨0xF1, .sbcIndY, 2, .indirectY⟩] : List Form),
    Performs f fun s t => ∃ ea, resolve f.mode s = some ea ∧
      let m : Byte := BitVec.ofNat 8 (255 - (s.mem.read ea).toNat)
      let sum : Nat := s.a.toNat + m.toNat + (s.p.getLsbD 0).toNat
      let r : Byte := BitVec.ofNat 8 (sum % 256)
      t = { s with a := r, p := t.p } ∧
      BitsWritten s.p t.p [(0, decide (255 < sum)), (1, r == 0#8),
        (6, s.a.msb == m.msb && r.msb != s.a.msb), (7, r.msb)]

/-- In every form the instruction answers a next state in which each bit of A is the and, exclusive or,
or inclusive or of the bits of A and of the operand; Z and N are from the new A; every other bit of
P and all else are unchanged; a step then moves PC by the length.
[R134, R135, R136] -/
def Obligations.LogicalInstructionsCombineBitwise : Prop :=
  (∀ f ∈ ([⟨0x29, .andImm, 2, .immediate⟩, ⟨0x25, .andZp, 2, .zeroPage⟩,
        ⟨0x35, .andZpX, 2, .zeroPageX⟩, ⟨0x2D, .andAbs, 3, .absolute⟩,
        ⟨0x3D, .andAbsX, 3, .absoluteX⟩, ⟨0x39, .andAbsY, 3, .absoluteY⟩,
        ⟨0x21, .andIndX, 2, .indirectX⟩, ⟨0x31, .andIndY, 2, .indirectY⟩] : List Form),
    Performs f fun s t => ∃ ea, resolve f.mode s = some ea ∧
      t = { s with a := t.a, p := t.p } ∧
      (∀ k, k < 8 → t.a.getLsbD k = (s.a.getLsbD k && (s.mem.read ea).getLsbD k)) ∧
      BitsWritten s.p t.p [(1, t.a == 0#8), (7, t.a.msb)]) ∧
  (∀ f ∈ ([⟨0x49, .eorImm, 2, .immediate⟩, ⟨0x45, .eorZp, 2, .zeroPage⟩,
        ⟨0x55, .eorZpX, 2, .zeroPageX⟩, ⟨0x4D, .eorAbs, 3, .absolute⟩,
        ⟨0x5D, .eorAbsX, 3, .absoluteX⟩, ⟨0x59, .eorAbsY, 3, .absoluteY⟩,
        ⟨0x41, .eorIndX, 2, .indirectX⟩, ⟨0x51, .eorIndY, 2, .indirectY⟩] : List Form),
    Performs f fun s t => ∃ ea, resolve f.mode s = some ea ∧
      t = { s with a := t.a, p := t.p } ∧
      (∀ k, k < 8 → t.a.getLsbD k = (s.a.getLsbD k ^^ (s.mem.read ea).getLsbD k)) ∧
      BitsWritten s.p t.p [(1, t.a == 0#8), (7, t.a.msb)]) ∧
  (∀ f ∈ ([⟨0x09, .oraImm, 2, .immediate⟩, ⟨0x05, .oraZp, 2, .zeroPage⟩,
        ⟨0x15, .oraZpX, 2, .zeroPageX⟩, ⟨0x0D, .oraAbs, 3, .absolute⟩,
        ⟨0x1D, .oraAbsX, 3, .absoluteX⟩, ⟨0x19, .oraAbsY, 3, .absoluteY⟩,
        ⟨0x01, .oraIndX, 2, .indirectX⟩, ⟨0x11, .oraIndY, 2, .indirectY⟩] : List Form),
    Performs f fun s t => ∃ ea, resolve f.mode s = some ea ∧
      t = { s with a := t.a, p := t.p } ∧
      (∀ k, k < 8 → t.a.getLsbD k = (s.a.getLsbD k || (s.mem.read ea).getLsbD k)) ∧
      BitsWritten s.p t.p [(1, t.a == 0#8), (7, t.a.msb)])

/-- Each accumulator form answers a next state in which A is doubled modulo 256 or halved, with the
previous carry in the vacated bit for ROL and ROR; C is the bit shifted out, Z and N are from the
result; V, I, D, B, B2, memory and all else are unchanged; a step moves PC by 1.
[43_shift_rotate.md (R140 to R144, the ACC forms)] -/
def Obligations.AccumulatorShiftsMoveOneBit : Prop :=
  Performs ⟨0x0A, .aslAcc, 1, .noneAddressing⟩ (fun s t =>
    let v : Byte := s.a
    let r : Byte := BitVec.ofNat 8 (v.toNat * 2 % 256)
    t = { s with a := r, p := t.p } ∧
    BitsWritten s.p t.p [(0, v.getLsbD 7), (1, r == 0#8), (7, r.msb)]) ∧
  Performs ⟨0x4A, .lsrAcc, 1, .noneAddressing⟩ (fun s t =>
    let v : Byte := s.a
    let r : Byte := BitVec.ofNat 8 (v.toNat / 2)
    t = { s with a := r, p := t.p } ∧
    BitsWritten s.p t.p [(0, v.getLsbD 0), (1, r == 0#8), (7, r.msb)]) ∧
  Performs ⟨0x2A, .rolAcc, 1, .noneAddressing⟩ (fun s t =>
    let v : Byte := s.a
    let c : Bool := s.p.getLsbD 0
    let r : Byte := BitVec.ofNat 8 (v.toNat * 2 % 256 + c.toNat)
    t = { s with a := r, p := t.p } ∧
    BitsWritten s.p t.p [(0, v.getLsbD 7), (1, r == 0#8), (7, r.msb)]) ∧
  Performs ⟨0x6A, .rorAcc, 1, .noneAddressing⟩ (fun s t =>
    let v : Byte := s.a
    let c : Bool := s.p.getLsbD 0
    let r : Byte := BitVec.ofNat 8 (v.toNat / 2 + c.toNat * 128)
    t = { s with a := r, p := t.p } ∧
    BitsWritten s.p t.p [(0, v.getLsbD 0), (1, r == 0#8), (7, r.msb)])

/-- In every memory form the instruction answers a next state in which the byte at the effective address
is shifted as the accumulator form shifts A, every other cell reads as before, C is the bit shifted
out, Z and N are from the byte stored; A, X, Y, S and the other bits of P are unchanged; a step then
moves PC by the length.
[43_shift_rotate.md (R140 to R144, the memory forms), 40_step_and_addressing.md section 2 (R107)] -/
def Obligations.MemoryShiftsMoveOneBit : Prop :=
  (∀ f ∈ ([⟨0x06, .aslZp, 2, .zeroPage⟩, ⟨0x16, .aslZpX, 2, .zeroPageX⟩,
        ⟨0x0E, .aslAbs, 3, .absolute⟩, ⟨0x1E, .aslAbsX, 3, .absoluteX⟩] : List Form),
    Performs f fun s t => ∃ ea, resolve f.mode s = some ea ∧
      let v : Byte := s.mem.read ea
      let r : Byte := BitVec.ofNat 8 (v.toNat * 2 % 256)
      t = { s with mem := t.mem, p := t.p } ∧ ByteStored s.mem t.mem ea r ∧
      BitsWritten s.p t.p [(0, v.getLsbD 7), (1, r == 0#8), (7, r.msb)]) ∧
  (∀ f ∈ ([⟨0x46, .lsrZp, 2, .zeroPage⟩, ⟨0x56, .lsrZpX, 2, .zeroPageX⟩,
        ⟨0x4E, .lsrAbs, 3, .absolute⟩, ⟨0x5E, .lsrAbsX, 3, .absoluteX⟩] : List Form),
    Performs f fun s t => ∃ ea, resolve f.mode s = some ea ∧
      let v : Byte := s.mem.read ea
      let r : Byte := BitVec.ofNat 8 (v.toNat / 2)
      t = { s with mem := t.mem, p := t.p } ∧ ByteStored s.mem t.mem ea r ∧
      BitsWritten s.p t.p [(0, v.getLsbD 0), (1, r == 0#8), (7, r.msb)]) ∧
  (∀ f ∈ ([⟨0x26, .rolZp, 2, .zeroPage⟩, ⟨0x36, .rolZpX, 2, .zeroPageX⟩,
        ⟨0x2E, .rolAbs, 3, .absolute⟩, ⟨0x3E, .rolAbsX, 3, .absoluteX⟩] : List Form),
    Performs f fun s t => ∃ ea, resolve f.mode s = some ea ∧
      let v : Byte := s.mem.read ea
      let c : Bool := s.p.getLsbD 0
      let r : Byte := BitVec.ofNat 8 (v.toNat * 2 % 256 + c.toNat)
      t = { s with mem := t.mem, p := t.p } ∧ ByteStored s.mem t.mem ea r ∧
      BitsWritten s.p t.p [(0, v.getLsbD 7), (1, r == 0#8), (7, r.msb)]) ∧
  (∀ f ∈ ([⟨0x66, .rorZp, 2, .zeroPage⟩, ⟨0x76, .rorZpX, 2, .zeroPageX⟩,
        ⟨0x6E, .rorAbs, 3, .absolute⟩, ⟨0x7E, .rorAbsX, 3, .absoluteX⟩] : List Form),
    Performs f fun s t => ∃ ea, resolve f.mode s = some ea ∧
      let v : Byte := s.mem.read ea
      let c : Bool := s.p.getLsbD 0
      let r : Byte := BitVec.ofNat 8 (v.toNat / 2 + c.toNat * 128)
      t = { s with mem := t.mem, p := t.p } ∧ ByteStored s.mem t.mem ea r ∧
      BitsWritten s.p t.p [(0, v.getLsbD 0), (1, r == 0#8), (7, r.msb)])

/-- Each answers a next state in which X or Y is one more or one less modulo 256 (less one is plus 255),
Z and N are from the result, and every other bit of P and all else are unchanged; a step moves PC by
1.
[R151, R152, R153, R154] -/
def Obligations.IndexRegistersCountModulo256 : Prop :=
  Performs ⟨0xE8, .inx, 1, .noneAddressing⟩ (fun s t =>
    let r : Byte := BitVec.ofNat 8 ((s.x.toNat + 1) % 256)
    t = { s with x := r, p := t.p } ∧ BitsWritten s.p t.p [(1, r == 0#8), (7, r.msb)]) ∧
  Performs ⟨0xC8, .iny, 1, .noneAddressing⟩ (fun s t =>
    let r : Byte := BitVec.ofNat 8 ((s.y.toNat + 1) % 256)
    t = { s with y := r, p := t.p } ∧ BitsWritten s.p t.p [(1, r == 0#8), (7, r.msb)]) ∧
  Performs ⟨0xCA, .dex, 1, .noneAddressing⟩ (fun s t =>
    let r : Byte := BitVec.ofNat 8 ((s.x.toNat + 255) % 256)
    t = { s with x := r, p := t.p } ∧ BitsWritten s.p t.p [(1, r == 0#8), (7, r.msb)]) ∧
  Performs ⟨0x88, .dey, 1, .noneAddressing⟩ (fun s t =>
    let r : Byte := BitVec.ofNat 8 ((s.y.toNat + 255) % 256)
    t = { s with y := r, p := t.p } ∧ BitsWritten s.p t.p [(1, r == 0#8), (7, r.msb)])

/-- In every form the cell at the effective address holds one more or one less modulo 256 afterwards,
every other cell reads as before, Z and N are from the byte stored, and C, V, the registers and all
else are unchanged; a step then moves PC by the length.
[R155, R156] -/
def Obligations.MemoryCellsCountModulo256 : Prop :=
  (∀ f ∈ ([⟨0xE6, .incZp, 2, .zeroPage⟩, ⟨0xF6, .incZpX, 2, .zeroPageX⟩,
        ⟨0xEE, .incAbs, 3, .absolute⟩, ⟨0xFE, .incAbsX, 3, .absoluteX⟩] : List Form),
    Performs f fun s t => ∃ ea, resolve f.mode s = some ea ∧
      let r : Byte := BitVec.ofNat 8 (((s.mem.read ea).toNat + 1) % 256)
      t = { s with mem := t.mem, p := t.p } ∧ ByteStored s.mem t.mem ea r ∧
      BitsWritten s.p t.p [(1, r == 0#8), (7, r.msb)]) ∧
  (∀ f ∈ ([⟨0xC6, .decZp, 2, .zeroPage⟩, ⟨0xD6, .decZpX, 2, .zeroPageX⟩,
        ⟨0xCE, .decAbs, 3, .absolute⟩, ⟨0xDE, .decAbsX, 3, .absoluteX⟩] : List Form),
    Performs f fun s t => ∃ ea, resolve f.mode s = some ea ∧
      let r : Byte := BitVec.ofNat 8 (((s.mem.read ea).toNat + 255) % 256)
      t = { s with mem := t.mem, p := t.p } ∧ ByteStored s.mem t.mem ea r ∧
      BitsWritten s.p t.p [(1, r == 0#8), (7, r.msb)])

/-- In every form the compare answers a next state in which only P has changed: C says whether the
operand is at most the register as unsigned numbers, Z and N are from register minus operand modulo
256, every other bit is unchanged; a step then moves PC by the length.
[R160, R161, R162, R163] -/
def Obligations.ComparesWriteCarryZeroNegative : Prop :=
  (∀ f ∈ ([⟨0xC9, .cmpImm, 2, .immediate⟩, ⟨0xC5, .cmpZp, 2, .zeroPage⟩,
        ⟨0xD5, .cmpZpX, 2, .zeroPageX⟩, ⟨0xCD, .cmpAbs, 3, .absolute⟩,
        ⟨0xDD, .cmpAbsX, 3, .absoluteX⟩, ⟨0xD9, .cmpAbsY, 3, .absoluteY⟩,
        ⟨0xC1, .cmpIndX, 2, .indirectX⟩, ⟨0xD1, .cmpIndY, 2, .indirectY⟩] : List Form),
    Performs f fun s t => ∃ ea, resolve f.mode s = some ea ∧
      let m : Byte := s.mem.read ea
      let d : Byte := BitVec.ofNat 8 ((s.a.toNat + 256 - m.toNat) % 256)
      t = { s with p := t.p } ∧
      BitsWritten s.p t.p [(0, decide (m.toNat ≤ s.a.toNat)), (1, d == 0#8), (7, d.msb)]) ∧
  (∀ f ∈ ([⟨0xE0, .cpxImm, 2, .immediate⟩, ⟨0xE4, .cpxZp, 2, .zeroPage⟩,
        ⟨0xEC, .cpxAbs, 3, .absolute⟩] : List Form),
    Performs f fun s t => ∃ ea, resolve f.mode s = some ea ∧
      let m : Byte := s.mem.read ea
      let d : Byte := BitVec.ofNat 8 ((s.x.toNat + 256 - m.toNat) % 256)
      t = { s with p := t.p } ∧
      BitsWritten s.p t.p [(0, decide (m.toNat ≤ s.x.toNat)), (1, d == 0#8), (7, d.msb)]) ∧
  (∀ f ∈ ([⟨0xC0, .cpyImm, 2, .immediate⟩, ⟨0xC4, .cpyZp, 2, .zeroPage⟩,
        ⟨0xCC, .cpyAbs, 3, .absolute⟩] : List Form),
    Performs f fun s t => ∃ ea, resolve f.mode s = some ea ∧
      let m : Byte := s.mem.read ea
      let d : Byte := BitVec.ofNat 8 ((s.y.toNat + 256 - m.toNat) % 256)
      t = { s with p := t.p } ∧
      BitsWritten s.p t.p [(0, decide (m.toNat ≤ s.y.toNat)), (1, d == 0#8), (7, d.msb)])

/-- In both forms BIT answers a next state in which only P has changed: Z says whether A and the operand
have no bit in common, N is bit 7 and V bit 6 of the operand, whatever A holds; every other bit is
unchanged; a step then moves PC by the length.
[R164] -/
def Obligations.BitTestReadsOperandBits : Prop :=
  ∀ f ∈ ([⟨0x24, .bitZp, 2, .zeroPage⟩, ⟨0x2C, .bitAbs, 3, .absolute⟩] : List Form),
    Performs f fun s t => ∃ ea, resolve f.mode s = some ea ∧
      let m : Byte := s.mem.read ea
      t = { s with p := t.p } ∧
      BitsWritten s.p t.p [(1, decide (s.a.toNat &&& m.toNat = 0)),
        (7, m.getLsbD 7), (6, m.getLsbD 6)]

/-- Each of the eight branches answers a next state that differs in PC at most: if its flag has its
value, PC is the address after the offset byte plus the signed offset modulo 65536, else PC is
unchanged; a step then skips the offset byte if PC still has the value pcd (not taken, or offset
0xFF).
[R170, R171, R172, R173, R174, R175, R176, R177, R178] -/
def Obligations.BranchesMovePcBySignedOffset : Prop :=
  ∀ b ∈ ([(⟨0x90, .bcc, 2, .noneAddressing⟩, 0, false),
      (⟨0xB0, .bcs, 2, .noneAddressing⟩, 0, true),
      (⟨0xD0, .bne, 2, .noneAddressing⟩, 1, false),
      (⟨0xF0, .beq, 2, .noneAddressing⟩, 1, true),
      (⟨0x10, .bpl, 2, .noneAddressing⟩, 7, false),
      (⟨0x30, .bmi, 2, .noneAddressing⟩, 7, true),
      (⟨0x50, .bvc, 2, .noneAddressing⟩, 6, false), (⟨0x70, .bvs, 2, .noneAddressing⟩, 6, true)] :
      List (Form × Nat × Bool)),
    Performs b.1 fun s t =>
      t = { s with pc := if s.p.getLsbD b.2.1 = b.2.2 then
        s.pc + 1#16 + BitVec.ofInt 16 (s.mem.read s.pc).toInt else s.pc }

/-- JMP absolute answers a next state whose PC is the little-endian operand word. JMP indirect answers
one whose PC is the word at the pointer its operand gives, the high byte read from the pointer's own
page (low byte plus 1 modulo 256). Nothing else changes; step 4 moves PC on only when the target
equals pcd.
[R186, R187] -/
def Obligations.JumpsLoadPc : Prop :=
  Performs ⟨0x4C, .jmpAbs, 3, .noneAddressing⟩ (fun s t =>
    t = { s with pc := hiLo (s.mem.read (s.pc + 1#16)) (s.mem.read s.pc) }) ∧
  Performs ⟨0x6C, .jmpInd, 3, .noneAddressing⟩ (fun s t =>
    let lo : Byte := s.mem.read s.pc
    let hi : Byte := s.mem.read (s.pc + 1#16)
    t = { s with pc := hiLo (s.mem.read (hiLo hi (lo + 1#8))) (s.mem.read (hiLo hi lo)) })

/-- JSR answers a next state in which the cell at 0x0100 + S holds the high byte and the cell at 0x0100
+ (S - 1) the low byte of the address of the JSR's last byte, every other cell reads as before, S is
down by 2 modulo 256, and PC is the operand word as memory holds it after the pushes; A, X, Y, P and
all else are unchanged. That the pushes come before the operand read is a choice: the spec's
decision D5, which the model takes for every state, the overlap of U4 too (entry 8). Where the bytes
lie on the stack is decisions D7 and D8 (entry 14).
[47_jump_call_return.md section 3 (R188), 48_stack.md section 1 (R195, R197), 92_eei_decisions.md
D5, 93_implementation_defined.md U4] -/
def Obligations.JsrPushesReturnAddressThenJumps : Prop :=
  Performs ⟨0x20, .jsr, 3, .noneAddressing⟩ fun s t =>
    t = { s with sp := s.sp - 2#8, pc := t.pc, mem := t.mem } ∧
    (t.mem.read (stackCell s.sp)).toNat = (s.pc + 1#16).toNat / 256 ∧
    (t.mem.read (stackCell (s.sp - 1#8))).toNat = (s.pc + 1#16).toNat % 256 ∧
    (∀ b : Word, b ≠ stackCell s.sp → b ≠ stackCell (s.sp - 1#8) → t.mem.read b = s.mem.read b) ∧
    t.pc = hiLo (t.mem.read (s.pc + 1#16)) (t.mem.read s.pc)

/-- RTS answers a next state in which PC is the word whose low byte is at 0x0100 + (S + 1) and high byte
at 0x0100 + (S + 2), plus 1 modulo 65536, and S is up by 2 modulo 256; A, X, Y, P, memory and all
else are unchanged.
[R189] -/
def Obligations.RtsPopsReturnAddressPlusOne : Prop :=
  Performs ⟨0x60, .rts, 1, .noneAddressing⟩ fun s t =>
    t = { s with sp := s.sp + 2#8, pc := hiLo (s.mem.read (stackCell (s.sp + 2#8)))
                                          (s.mem.read (stackCell (s.sp + 1#8))) + 1#16 }

/-- RTI answers a next state in which P is the byte at 0x0100 + (S + 1) with bit 4 cleared and bit 5
set, PC is the word whose low byte is at 0x0100 + (S + 2) and high byte at 0x0100 + (S + 3), and S
is up by 3 modulo 256; A, X, Y, memory and all else are unchanged.
[R190] -/
def Obligations.RtiPopsStatusThenPc : Prop :=
  Performs ⟨0x40, .rti, 1, .noneAddressing⟩ fun s t =>
    t = { s with sp := s.sp + 3#8, p := t.p, pc := hiLo (s.mem.read (stackCell (s.sp + 3#8)))
                                                   (s.mem.read (stackCell (s.sp + 2#8))) } ∧
    BitsWritten (s.mem.read (stackCell (s.sp + 1#8))) t.p [(4, false), (5, true)]

/-- PHA and PHP answer a next state in which the cell at 0x0100 + S, with S as it was, holds A, or P
with bits 4 and 5 set; every other cell reads as before; S is down by 1 modulo 256; A, X, Y, P and
all else are unchanged; a step moves PC by 1.
[R200, R202] -/
def Obligations.PushesStoreAtStackCell : Prop :=
  Performs ⟨0x48, .pha, 1, .noneAddressing⟩ (fun s t =>
    t = { s with sp := s.sp - 1#8, mem := t.mem } ∧ ByteStored s.mem t.mem (stackCell s.sp) s.a) ∧
  Performs ⟨0x08, .php, 1, .noneAddressing⟩ (fun s t =>
    t = { s with sp := s.sp - 1#8, mem := t.mem } ∧
    ∃ v, ByteStored s.mem t.mem (stackCell s.sp) v ∧ BitsWritten s.p v [(4, true), (5, true)])

/-- PLA and PLP answer a next state in which S is up by 1 modulo 256 and the byte at 0x0100 + (S + 1)
has been loaded: into A, with Z and N from it and the rest of P unchanged, or into P, with bit 4
cleared and bit 5 set; memory and all else are unchanged; a step moves PC by 1.
[R201, R203] -/
def Obligations.PullsLoadFromStackCell : Prop :=
  Performs ⟨0x68, .pla, 1, .noneAddressing⟩ (fun s t =>
    let v : Byte := s.mem.read (stackCell (s.sp + 1#8))
    t = { s with a := v, sp := s.sp + 1#8, p := t.p } ∧
    BitsWritten s.p t.p [(1, v == 0#8), (7, v.msb)]) ∧
  Performs ⟨0x28, .plp, 1, .noneAddressing⟩ (fun s t =>
    t = { s with sp := s.sp + 1#8, p := t.p } ∧
    BitsWritten (s.mem.read (stackCell (s.sp + 1#8))) t.p [(4, false), (5, true)])

/-- Each answers a next state in which one bit of P (C 0, I 2, D 3, V 6) has the value the mnemonic
names, every other bit of P and all else are unchanged; a step moves PC by 1.
[R206, R207, R208, R209, R210, R211, R212] -/
def Obligations.FlagInstructionsWriteOneFlag : Prop :=
  ∀ b ∈ ([(⟨0x18, .clc, 1, .noneAddressing⟩, 0, false),
      (⟨0x38, .sec, 1, .noneAddressing⟩, 0, true),
      (⟨0x58, .cli, 1, .noneAddressing⟩, 2, false),
      (⟨0x78, .sei, 1, .noneAddressing⟩, 2, true),
      (⟨0xD8, .cld, 1, .noneAddressing⟩, 3, false),
      (⟨0xF8, .sed, 1, .noneAddressing⟩, 3, true), (⟨0xB8, .clv, 1, .noneAddressing⟩, 6, false)] : List (Form × Nat × Bool)),
    Performs b.1 fun s t => t = { s with p := t.p } ∧ BitsWritten s.p t.p [(b.2.1, b.2.2)]

/-- NOP answers the state it was performed in. BRK answers that state with the run state IDLE: nothing
is pushed, no vector is read, P (Break and Interrupt-Disable too), the registers, memory and the
error latch are unchanged. After the step PC is pc0 + 1 for both.
[R213, R214] -/
def Obligations.NopAndBrkChangeNoRegisterOrMemory : Prop :=
  Performs ⟨0xEA, .nop, 1, .noneAddressing⟩ (fun s t => t = s) ∧
  Performs ⟨0x00, .brk, 1, .noneAddressing⟩ (fun s t => t = { s with runState := .idle })

/-- For every form of ADC, every state and every effective address: V after the instruction is 1 exactly
when the sum of A and the operand read as signed bytes, plus the carry, is below -128 or above 127;
and the new A read as signed is that sum when V is 0.
[42_arithmetic_logic.md section 1 (R130, laws that follow), 95_test_vectors.md section 2.3] -/
def Obligations.AddOverflowIsSignedRange : Prop :=
  ∀ f ∈ ([⟨0x69, .adcImm, 2, .immediate⟩, ⟨0x65, .adcZp, 2, .zeroPage⟩,
      ⟨0x75, .adcZpX, 2, .zeroPageX⟩, ⟨0x6D, .adcAbs, 3, .absolute⟩,
      ⟨0x7D, .adcAbsX, 3, .absoluteX⟩, ⟨0x79, .adcAbsY, 3, .absoluteY⟩,
      ⟨0x61, .adcIndX, 2, .indirectX⟩, ⟨0x71, .adcIndY, 2, .indirectY⟩] : List Form),
    ∀ (s : State) (ea : Word), resolve f.mode s = some ea →
      ∃ t, exec f.instr s = .next t ∧
        let sum : Int := s.a.toInt + (s.mem.read ea).toInt + (s.p.getLsbD 0).toNat
        (t.p.getLsbD 6 = true ↔ sum < -128 ∨ 127 < sum) ∧ (t.p.getLsbD 6 = false → t.a.toInt = sum)

/-- For every form of SBC, every state and every effective address: A afterwards is A - M - (1 - C)
modulo 256, C is 1 exactly when that unsigned difference is not negative, and V is 1 exactly when
the signed difference is below -128 or above 127.
[42_arithmetic_logic.md section 2 (R132), 95_test_vectors.md section 2.3, 90_conflicts.md C1] -/
def Obligations.SubtractIsBorrowWithSignedOverflow : Prop :=
  ∀ f ∈ ([⟨0xE9, .sbcImm, 2, .immediate⟩, ⟨0xE5, .sbcZp, 2, .zeroPage⟩,
      ⟨0xF5, .sbcZpX, 2, .zeroPageX⟩, ⟨0xED, .sbcAbs, 3, .absolute⟩,
      ⟨0xFD, .sbcAbsX, 3, .absoluteX⟩, ⟨0xF9, .sbcAbsY, 3, .absoluteY⟩,
      ⟨0xE1, .sbcIndX, 2, .indirectX⟩, ⟨0xF1, .sbcIndY, 2, .indirectY⟩] : List Form),
    ∀ (s : State) (ea : Word), resolve f.mode s = some ea →
      ∃ t, exec f.instr s = .next t ∧
        let borrow : Int := 1 - ((s.p.getLsbD 0).toNat : Int)
        let u : Int := s.a.toNat - (s.mem.read ea).toNat - borrow
        let d : Int := s.a.toInt - (s.mem.read ea).toInt - borrow
        (t.a.toNat : Int) = u % 256 ∧ (t.p.getLsbD 0 = true ↔ 0 ≤ u) ∧
        (t.p.getLsbD 6 = true ↔ d < -128 ∨ 127 < d)

/-- From every state PHA then PLA restores A and S. From every state whose P has Break 0 and Break2 1
(which UnitInv gives after a reset) PHP then PLP restores P and S; memory differs in the one stack
cell only.
[48_stack.md section 1 (R196), 48_stack.md section 2 (R203 corner cases), 95_test_vectors.md S7] -/
def Obligations.PulledByteIsPushedByte : Prop :=
  ∀ s : State,
    (∃ t u, exec .pha s = .next t ∧ exec .pla t = .next u ∧ u.a = s.a ∧ u.sp = s.sp) ∧
    (s.p.getLsbD 4 = false → s.p.getLsbD 5 = true →
      ∃ t u, exec .php s = .next t ∧ exec .plp t = .next u ∧ u = { s with mem := u.mem } ∧
        ∀ b : Word, b ≠ stackCell s.sp → u.mem.read b = s.mem.read b)

/-- Let JSR be performed in a state in dispatch (PC at its first operand byte) and RTS in any later
state whose S is the one JSR left and whose two stack cells hold what JSR put there: PC is then the
JSR's opcode address plus 3, and S is what it was before the JSR.
[47_jump_call_return.md sections 1, 3 (R188, R189), 48_stack.md section 1 (R198)] -/
def Obligations.ReturnGoesBehindTheCall : Prop :=
  ∀ s t : State, exec .jsr s = .next t →
    ∀ r : State, r.sp = t.sp →
      r.mem.read (stackCell s.sp) = t.mem.read (stackCell s.sp) →
      r.mem.read (stackCell (s.sp - 1#8)) = t.mem.read (stackCell (s.sp - 1#8)) →
      ∃ u, exec .rts r = .next u ∧ u.pc = s.pc + 2#16 ∧ u.sp = s.sp

/-- For every state, PHA, PHP and JSR answer a next state in which every cell below 0x0100 and every
cell above 0x01FF reads as before.
[48_stack.md section 1 (R195, R199), 10_state.md section 2 (R26)] -/
def Obligations.PushesStayInStackPage : Prop :=
  ∀ (i : Instr) (s : State), i ∈ ([.pha, .php, .jsr] : List Instr) →
    ∃ t, exec i s = .next t ∧
      ∀ b : Word, (b.toNat < 0x0100 ∨ 0x01FF < b.toNat) → t.mem.read b = s.mem.read b

/-- Take any instruction but PHP and two states that are equal but for bits 2 (I) and 3 (D) of P.
Performed in both, the instruction leaves states that are again equal but for those two bits of P.
So I masks nothing, D selects nothing (ADC and SBC are binary), and PHP alone shows them.
[10_state.md section 4 (R32, R35, R36), 00_scope.md section 3 (R5)] -/
def Obligations.DecimalAndInterruptFlagsHaveNoEffect : Prop :=
  ∀ (i : Instr) (s s' : State), i ≠ .php →
    s' = { s with p := s'.p } → (∀ k, k < 8 → k ≠ 2 → k ≠ 3 → s'.p.getLsbD k = s.p.getLsbD k) →
    ∃ t t', exec i s = .next t ∧ exec i s' = .next t' ∧ t' = { t with p := t'.p } ∧
      ∀ k, k < 8 → k ≠ 2 → k ≠ 3 → t'.p.getLsbD k = t.p.getLsbD k

/-- For each of the eight bits of P and every instruction whose mnemonic is not in the list the spec
gives of that flag's writers, the instruction answers a next state in which the bit is as it was.
[10_state.md section 4 (R33 to R40)] -/
def Obligations.FlagsChangeOnlyByListedInstructions : Prop :=
  ∀ (i : Instr) (s : State), ∃ t, exec i s = .next t ∧
    (i.entry.mnemonic ∉ ([.adc, .sbc, .asl, .lsr, .rol, .ror, .cmp, .cpx, .cpy, .clc, .sec, .plp, .rti] : List Mnemonic) →
      t.p.getLsbD 0 = s.p.getLsbD 0) ∧
    (i.entry.mnemonic ∉ ([.lda, .ldx, .ldy, .tax, .tay, .txa, .tya, .tsx, .pla, .adc, .sbc, .and, .eor, .ora,
        .asl, .lsr, .rol, .ror, .inx, .iny, .dex, .dey, .inc, .dec, .cmp, .cpx, .cpy, .bit,
        .plp, .rti] : List Mnemonic) →
      t.p.getLsbD 1 = s.p.getLsbD 1) ∧
    (i.entry.mnemonic ∉ ([.sei, .cli, .plp, .rti] : List Mnemonic) →
      t.p.getLsbD 2 = s.p.getLsbD 2) ∧
    (i.entry.mnemonic ∉ ([.sed, .cld, .plp, .rti] : List Mnemonic) →
      t.p.getLsbD 3 = s.p.getLsbD 3) ∧
    (i.entry.mnemonic ∉ ([.plp, .rti] : List Mnemonic) →
      t.p.getLsbD 4 = s.p.getLsbD 4) ∧
    (i.entry.mnemonic ∉ ([.plp, .rti] : List Mnemonic) →
      t.p.getLsbD 5 = s.p.getLsbD 5) ∧
    (i.entry.mnemonic ∉ ([.adc, .sbc, .bit, .clv, .plp, .rti] : List Mnemonic) →
      t.p.getLsbD 6 = s.p.getLsbD 6) ∧
    (i.entry.mnemonic ∉ ([.lda, .ldx, .ldy, .tax, .tay, .txa, .tya, .tsx, .pla, .adc, .sbc, .and, .eor, .ora,
        .asl, .lsr, .rol, .ror, .inx, .iny, .dex, .dey, .inc, .dec, .cmp, .cpx, .cpy, .bit,
        .plp, .rti] : List Mnemonic) →
      t.p.getLsbD 7 = s.p.getLsbD 7)

/-- For each of A, X, Y, S, PC (the effect alone, not the step's own advance) and memory, and every
instruction whose mnemonic is not among the listed writers, the instruction answers a next state in
which it is as it was; memory then is the same list of cells.
[10_state.md sections 2, 3 (R23 to R28), 20_memory.md section 4 (R57)] -/
def Obligations.RegistersAndMemoryChangeOnlyByListedInstructions : Prop :=
  ∀ (i : Instr) (s : State), ∃ t, exec i s = .next t ∧
    (i.entry.mnemonic ∉ ([.lda, .txa, .tya, .pla, .adc, .sbc, .and, .eor, .ora, .asl, .lsr, .rol, .ror] : List Mnemonic) → t.a = s.a) ∧
    (i.entry.mnemonic ∉ ([.ldx, .tax, .tsx, .inx, .dex] : List Mnemonic) → t.x = s.x) ∧
    (i.entry.mnemonic ∉ ([.ldy, .tay, .iny, .dey] : List Mnemonic) → t.y = s.y) ∧
    (i.entry.mnemonic ∉ ([.txs, .pha, .php, .jsr, .pla, .plp, .rts, .rti] : List Mnemonic) → t.sp = s.sp) ∧
    (i.entry.mnemonic ∉ ([.bcc, .bcs, .bne, .beq, .bpl, .bmi, .bvc, .bvs, .jmp, .jsr, .rts, .rti] : List Mnemonic) → t.pc = s.pc) ∧
    (i.entry.mnemonic ∉ ([.sta, .stx, .sty, .asl, .lsr, .rol, .ror, .inc, .dec, .pha, .php, .jsr] : List Mnemonic) → t.mem = s.mem)

/-- If two memories are in the canonical form and every one of the 65536 addresses reads the same in
both, they are equal as lists: a state's memory says what its cells hold and nothing else. The
canonical form is the model's (entry 6).
[10_state.md section 5 (R41), 20_memory.md section 7 (R63)] -/
def Obligations.CanonicalMemoriesThatReadAlikeAreEqual : Prop :=
  ∀ m m' : Memory, m.wf = true → m'.wf = true → (∀ b : Word, m.read b = m'.read b) → m = m'
end

