-- ==== Sys2Proof/Laws/Decode.lean ====
section
/-!
SUPPORT. The two transcriptions of the opcode map against each other (spec 30_encoding.md R78, R79), and what a
successful decoding says.
-/

namespace Sys2Proof

/-- Every instruction's own opcode byte is looked up as it. -/
theorem lookup_opcode (i : Instr) : lookup i.opcode = some i := by
  cases i <;> decide

/-- Every instruction is one to three bytes long (R73). -/
theorem length_range (i : Instr) : 1 ≤ i.length ∧ i.length ≤ 3 := by
  cases i <;> decide

/-- A byte looked up as an instruction is its opcode byte. -/
theorem opcode_of_lookup {b : Byte} {i : Instr} (hi : lookup b = some i) : i.opcode = b := by
  have h : ∀ b : Byte,
      (match lookup b with | some i => decide (i.opcode = b) | none => true) = true := by decide
  have := h b
  rw [hi] at this
  simpa using this

/-- What a successful decoding says of its bytes. -/
theorem decode_ok {b : Byte} {bs rest : List Byte} {c : InstrBytes}
    (h : decode (b :: bs) = .ok (c, rest)) :
    lookup b = some c.instr ∧ c.instr.length - 1 ≤ bs.length ∧
      c.operands = bs.take (c.instr.length - 1) ∧ rest = bs.drop (c.instr.length - 1) := by
  rcases hl : lookup b with _ | i
  · simp [decode, hl] at h
  · simp only [decode, hl] at h
    by_cases hs : bs.length < i.length - 1
    · simp [hs] at h
    · simp only [if_neg hs, Except.ok.injEq, Prod.mk.injEq] at h
      obtain ⟨rfl, rfl⟩ := h
      exact ⟨rfl, by simpa using hs, rfl, rfl⟩

end Sys2Proof
end

