-- ==== Sys2Proof/Laws/Flags.lean ====
section
/-!
SUPPORT. What each flag computation does to the bits of P, one lemma each; the adder, the comparison and the
shifter in plain arithmetic. Later proofs cite these and unfold no flag operation.
-/

namespace Sys2Proof.Machine

/-- `set(flag, b)` writes that bit and no other (R30). -/
theorem getLsbD_setFlag (p : Byte) (f : Flag) (b : Bool) (k : Nat) (hk : k < 8) :
    (setFlag p f b).getLsbD k = if k = f.bit then b else p.getLsbD k := by
  cases b <;> cases f <;>
    simp only [setFlag, Flag.mask, Flag.bit, Bool.false_eq_true, if_false, if_true] <;>
    interval_cases k <;> simp

/-- Reading a flag after writing it, or another (R30). -/
@[simp] theorem getFlag_setFlag (p : Byte) (f g : Flag) (b : Bool) :
    getFlag (setFlag p f b) g = if g = f then b else getFlag p g := by
  have hg : g.bit < 8 := by cases g <;> decide
  rw [getFlag, getLsbD_setFlag _ _ _ _ hg]
  cases f <;> cases g <;> simp [Flag.bit, getFlag]

/-- `set(flag, b)` as bits written. -/
theorem setFlag_bits (p : Byte) (f : Flag) (b : Bool) : BitsWritten p (setFlag p f b) [(f.bit, b)] := by
  intro k hk
  rw [getLsbD_setFlag _ _ _ _ hk]
  by_cases h : k = f.bit
  · simp [h, List.lookup]
  · simp [h, List.lookup, beq_eq_false_iff_ne.mpr h]

/-- `setZN` writes bits 1 and 7 (R13). -/
theorem setZN_bits (p r : Byte) : BitsWritten p (setZN p r) [(1, r == 0#8), (7, r.msb)] := by
  intro k hk
  simp only [setZN, getLsbD_setFlag _ _ _ _ hk, Flag.bit]
  interval_cases k <;> simp [List.lookup]

/-- `AddWithCarry` writes bits 0, 6, 1 and 7 (R130). -/
theorem addFlags_bits (p a m : Byte) (c : Bool) :
    BitsWritten p (addFlags p a m c)
      [(0, addCarry a m c), (1, addResult a m c == 0#8), (6, addOverflow a m c),
        (7, (addResult a m c).msb)] := by
  intro k hk
  simp only [addFlags, setZN, getLsbD_setFlag _ _ _ _ hk, Flag.bit]
  interval_cases k <;> simp [List.lookup]

/-- A compare writes bits 0, 1 and 7 (R160). -/
theorem compareFlags_bits (p reg m : Byte) :
    BitsWritten p (compareFlags p reg m)
      [(0, decide (m ≤ reg)), (1, reg - m == 0#8), (7, (reg - m).msb)] := by
  intro k hk
  simp only [compareFlags, setZN, getLsbD_setFlag _ _ _ _ hk, Flag.bit]
  interval_cases k <;> simp [List.lookup]

/-- BIT writes bits 1, 7 and 6 (R164). -/
theorem bitTestFlags_bits (p a m : Byte) :
    BitsWritten p (bitTestFlags p a m)
      [(1, a &&& m == 0#8), (7, m.getLsbD 7), (6, m.getLsbD 6)] := by
  intro k hk
  simp only [bitTestFlags, getLsbD_setFlag _ _ _ _ hk, Flag.bit]
  interval_cases k <;> simp [List.lookup]

/-- A shift writes bits 0, 1 and 7 (R140). -/
theorem shiftFlags_bits (p : Byte) (out : Byte × Bool) :
    BitsWritten p (shiftFlags p out) [(0, out.2), (1, out.1 == 0#8), (7, out.1.msb)] := by
  intro k hk
  simp only [shiftFlags, setZN, getLsbD_setFlag _ _ _ _ hk, Flag.bit]
  interval_cases k <;> simp [List.lookup]

/-- The load convention: bit 4 cleared, bit 5 set, the rest from the byte (R31). -/
theorem statusFromStack_bits (v : Byte) :
    BitsWritten v (statusFromStack v) [(4, false), (5, true)] := by
  intro k hk
  interval_cases k <;> simp [List.lookup, statusFromStack]

/-- PHP's copy: bits 4 and 5 set (R31, R202). -/
theorem statusToStack_bits (p : Byte) : BitsWritten p (statusToStack p) [(4, true), (5, true)] := by
  intro k hk
  interval_cases k <;> simp [List.lookup, statusToStack]

/-- A byte is its eight bits. -/
theorem byte_ext {v w : Byte} (h : ∀ k, k < 8 → v.getLsbD k = w.getLsbD k) : v = w :=
  BitVec.eq_of_getLsbD_eq fun i hi => h i hi

/-- The byte SBC adds is 255 minus the operand, the complement (R132, R12). -/
theorem subtrahend_eq (m : Byte) : subtrahend m = BitVec.ofNat 8 (255 - m.toNat) := by
  have := m.isLt
  apply BitVec.eq_of_toNat_eq
  simp [subtrahend, BitVec.toNat_sub]
  omega

theorem toNat_subtrahend (m : Byte) : (subtrahend m).toNat = 255 - m.toNat := by
  have := m.isLt
  rw [subtrahend_eq, BitVec.toNat_ofNat]
  omega

/-- The adder's result as a number (R130). -/
theorem addResult_eq (a m : Byte) (c : Bool) :
    addResult a m c = BitVec.ofNat 8 ((a.toNat + m.toNat + c.toNat) % 256) := by
  apply BitVec.eq_of_toNat_eq
  simp [addResult, sumWithCarry]

/-- One more, one less, and a difference, modulo 256, as numbers (R150, R160). -/
theorem byte_succ_eq (v : Byte) : v + 1#8 = BitVec.ofNat 8 ((v.toNat + 1) % 256) := by
  apply BitVec.eq_of_toNat_eq
  simp

theorem byte_pred_eq (v : Byte) : v - 1#8 = BitVec.ofNat 8 ((v.toNat + 255) % 256) := by
  apply BitVec.eq_of_toNat_eq
  simp [BitVec.toNat_sub]
  omega

theorem byte_sub_eq (v m : Byte) : v - m = BitVec.ofNat 8 ((v.toNat + 256 - m.toNat) % 256) := by
  have := m.isLt
  apply BitVec.eq_of_toNat_eq
  simp [BitVec.toNat_sub]
  omega

/-- The four shifters as numbers: the shifted byte and the bit shifted out (R141 to R144). -/
theorem shiftAsl_eq (v : Byte) (c : Bool) :
    shiftAsl v c = (BitVec.ofNat 8 (v.toNat * 2 % 256), v.getLsbD 7) := by
  refine Prod.ext ?_ rfl
  revert v c
  decide

theorem shiftLsr_eq (v : Byte) (c : Bool) :
    shiftLsr v c = (BitVec.ofNat 8 (v.toNat / 2), v.getLsbD 0) := by
  refine Prod.ext ?_ rfl
  revert v c
  decide

theorem shiftRol_eq (v : Byte) (c : Bool) :
    shiftRol v c = (BitVec.ofNat 8 (v.toNat * 2 % 256 + c.toNat), v.getLsbD 7) := by
  refine Prod.ext ?_ rfl
  revert v c
  decide

theorem shiftRor_eq (v : Byte) (c : Bool) :
    shiftRor v c = (BitVec.ofNat 8 (v.toNat / 2 + c.toNat * 128), v.getLsbD 0) := by
  refine Prod.ext ?_ rfl
  revert v c
  decide

end Sys2Proof.Machine
end

