-- ==== Sys2Proof/Laws/Memory.lean ====
section
/-!
SUPPORT. The laws of memory (spec 20_memory.md R51, R52): a read after a write gives the byte written at its
address and what was there at every other, and every operation keeps the canonical form.
-/

namespace Sys2Proof.Machine

theorem Memory.get_erase (m : Memory) (a b : Nat) :
    Memory.get (Memory.erase m a) b = if a = b then Config.memInit else Memory.get m b := by
  induction m with
  | nil => simp [Memory.erase, Memory.get]
  | cons c m ih =>
    obtain ⟨k, v⟩ := c
    by_cases hk : k = a
    · subst hk
      simp only [Memory.erase, Memory.get, if_true, ih]
      split <;> rfl
    · by_cases hb : k = b
      · subst hb
        simp [Memory.erase, Memory.get, hk, Ne.symm hk]
      · simp [Memory.erase, Memory.get, ih, hk, hb]

theorem Memory.get_insert (m : Memory) (a b : Nat) (v : Byte) (h : ∀ c ∈ m, c.1 ≠ a) :
    Memory.get (Memory.insert m a v) b = if a = b then v else Memory.get m b := by
  induction m with
  | nil => simp [Memory.insert, Memory.get]
  | cons c m ih =>
    obtain ⟨k, w⟩ := c
    have hk : k ≠ a := h (k, w) (by simp)
    have ih' := ih fun c hc => h c (by simp [hc])
    by_cases hlt : a < k
    · simp [Memory.insert, Memory.get, hlt]
    · by_cases hb : k = b
      · subst hb
        simp [Memory.insert, Memory.get, hlt, Ne.symm hk]
      · simp [Memory.insert, Memory.get, hlt, hb, ih']

theorem Memory.mem_erase {m : Memory} {a : Nat} {c : Host.Cell} (h : c ∈ Memory.erase m a) :
    c ∈ m ∧ c.1 ≠ a := by
  induction m with
  | nil => simp [Memory.erase] at h
  | cons d m ih =>
    obtain ⟨k, v⟩ := d
    by_cases hk : k = a
    · simp only [Memory.erase, hk, if_true] at h
      exact ⟨List.mem_cons_of_mem _ (ih h).1, (ih h).2⟩
    · simp only [Memory.erase, hk, if_false, List.mem_cons] at h
      rcases h with rfl | h
      · exact ⟨List.mem_cons_self, hk⟩
      · exact ⟨List.mem_cons_of_mem _ (ih h).1, (ih h).2⟩

/-- Read after write (R51, R52). -/
theorem Memory.read_write (m : Memory) (a b : Word) (v : Byte) :
    (m.write a v).read b = if b = a then v else m.read b := by
  have hab : (a.toNat = b.toNat) ↔ b = a :=
    ⟨fun h => (BitVec.eq_of_toNat_eq h).symm, fun h => by rw [h]⟩
  unfold Memory.write Memory.read
  by_cases hv : v = Config.memInit
  · simp only [hv, if_true, Memory.get_erase, hab]
  · rw [if_neg hv, Memory.get_insert _ _ _ _ fun c hc => (Memory.mem_erase hc).2,
      Memory.get_erase]
    simp only [hab]
    split <;> rfl

@[simp] theorem Memory.read_write_same (m : Memory) (a : Word) (v : Byte) :
    (m.write a v).read a = v := by simp [Memory.read_write]

theorem Memory.read_write_other {a b : Word} (m : Memory) (v : Byte) (h : b ≠ a) :
    (m.write a v).read b = m.read b := by simp [Memory.read_write, h]

@[simp] theorem Memory.read_empty (a : Word) : Memory.empty.read a = Config.memInit := rfl

/-! ### The canonical form -/

theorem Memory.wfFrom_mono {m : Memory} {lo lo' : Nat} (h : lo' ≤ lo)
    (hm : Memory.wfFrom lo m = true) : Memory.wfFrom lo' m = true := by
  cases m with
  | nil => rfl
  | cons c m =>
    obtain ⟨k, v⟩ := c
    simp only [Memory.wfFrom, Bool.and_eq_true, decide_eq_true_eq] at hm ⊢
    exact ⟨⟨⟨h.trans hm.1.1.1, hm.1.1.2⟩, hm.1.2⟩, hm.2⟩

theorem Memory.wfFrom_erase {m : Memory} {lo : Nat} (a : Nat) (hm : Memory.wfFrom lo m = true) :
    Memory.wfFrom lo (Memory.erase m a) = true := by
  induction m generalizing lo with
  | nil => rfl
  | cons c m ih =>
    obtain ⟨k, v⟩ := c
    simp only [Memory.wfFrom, Bool.and_eq_true, decide_eq_true_eq] at hm
    by_cases hk : k = a
    · simp only [Memory.erase, hk, if_true]
      exact Memory.wfFrom_mono (by omega) (ih hm.2)
    · simp only [Memory.erase, hk, if_false, Memory.wfFrom, Bool.and_eq_true, decide_eq_true_eq]
      exact ⟨hm.1, ih hm.2⟩

theorem Memory.wfFrom_insert {m : Memory} {lo a : Nat} {v : Byte} (hm : Memory.wfFrom lo m = true)
    (hlo : lo ≤ a) (ha : a < Config.memSize) (hv : v ≠ Config.memInit) (hne : ∀ c ∈ m, c.1 ≠ a) :
    Memory.wfFrom lo (Memory.insert m a v) = true := by
  induction m generalizing lo with
  | nil => simp [Memory.insert, Memory.wfFrom, hlo, ha, hv]
  | cons c m ih =>
    obtain ⟨k, w⟩ := c
    have hk : k ≠ a := hne (k, w) (by simp)
    simp only [Memory.wfFrom, Bool.and_eq_true, decide_eq_true_eq] at hm
    by_cases hlt : a < k
    · simp only [Memory.insert, hlt, if_true, Memory.wfFrom, Bool.and_eq_true, decide_eq_true_eq]
      exact ⟨⟨⟨hlo, ha⟩, hv⟩, ⟨⟨⟨by omega, hm.1.1.2⟩, hm.1.2⟩, hm.2⟩⟩
    · simp only [Memory.insert, hlt, if_false, Memory.wfFrom, Bool.and_eq_true, decide_eq_true_eq]
      exact ⟨hm.1, ih hm.2 (by omega) fun c hc => hne c (by simp [hc])⟩

theorem Memory.wf_empty : Memory.empty.wf = true := rfl

/-- Writing a byte keeps the canonical form. -/
theorem Memory.wf_write {m : Memory} (a : Word) (v : Byte) (hm : m.wf = true) :
    (m.write a v).wf = true := by
  unfold Memory.write
  split
  · exact Memory.wfFrom_erase _ hm
  · exact Memory.wfFrom_insert (Memory.wfFrom_erase _ hm) (Nat.zero_le _) a.isLt ‹_›
      fun c hc => (Memory.mem_erase hc).2

/-- Writing a word keeps the canonical form. -/
theorem Memory.wf_writeWord {m : Memory} (a w : Word) (hm : m.wf = true) :
    (m.writeWord a w).wf = true :=
  Memory.wf_write _ _ (Memory.wf_write _ _ hm)

/-- Writing a row of bytes keeps the canonical form. -/
theorem Memory.wf_writeBytes {m : Memory} (a : Word) (vs : List Byte) (hm : m.wf = true) :
    (m.writeBytes a vs).wf = true := by
  induction vs generalizing m a with
  | nil => exact hm
  | cons v vs ih => exact ih _ (Memory.wf_write a v hm)

/-! ### Words -/

/-- `word(hi, lo)` is `hi * 256 + lo` (R9). -/
theorem toNat_word (hi lo : Byte) : (word hi lo).toNat = hi.toNat * 256 + lo.toNat := by
  have := lo.isLt
  show (hi ++ lo).toNat = _
  rw [BitVec.toNat_append, ← Nat.shiftLeft_add_eq_or_of_lt this, Nat.shiftLeft_eq]

theorem toNat_lowByte (w : Word) : (lowByte w).toNat = w.toNat % 256 := by
  simp [lowByte]

theorem toNat_highByte (w : Word) : (highByte w).toNat = w.toNat / 256 := by
  have := w.isLt
  simp only [highByte, BitVec.extractLsb'_toNat, Nat.shiftRight_eq_div_pow]
  omega

/-- A word is its two bytes (R9, R53). -/
@[simp] theorem word_high_low (w : Word) : word (highByte w) (lowByte w) = w := by
  apply BitVec.eq_of_toNat_eq
  rw [toNat_word, toNat_highByte, toNat_lowByte]
  omega

theorem Memory.readWord_eq (m : Memory) (a : Word) :
    m.readWord a = word (m.read (a + 1#16)) (m.read a) := rfl

theorem lowByte_word (hi lo : Byte) : lowByte (word hi lo) = lo := by
  apply BitVec.eq_of_toNat_eq
  have := lo.isLt
  rw [toNat_lowByte, toNat_word]
  omega

theorem highByte_word (hi lo : Byte) : highByte (word hi lo) = hi := by
  apply BitVec.eq_of_toNat_eq
  have := lo.isLt
  rw [toNat_highByte, toNat_word]
  omega

/-- A cell below every listed one reads as one nothing has written. -/
theorem Memory.get_of_wfFrom {m : Memory} {lo k : Nat} (hm : Memory.wfFrom lo m = true) (hk : k < lo) :
    Memory.get m k = Config.memInit := by
  induction m generalizing lo with
  | nil => rfl
  | cons c m ih =>
    obtain ⟨j, v⟩ := c
    simp only [Memory.wfFrom, Bool.and_eq_true, decide_eq_true_eq] at hm
    rw [Memory.get, if_neg (by omega)]
    exact ih hm.2 (by omega)

/-- A row of bytes that does not run past the last address: which cell holds which (R257). -/
theorem Memory.read_writeBytes (m : Memory) (a : Word) (vs : List Byte)
    (hl : a.toNat + vs.length ≤ 65536) (b : Word) :
    (m.writeBytes a vs).read b =
      if h : a.toNat ≤ b.toNat ∧ b.toNat < a.toNat + vs.length then vs[b.toNat - a.toNat]'(by omega)
      else m.read b := by
  induction vs generalizing m a with
  | nil => simp [Memory.writeBytes]
  | cons v vs ih =>
    have := b.isLt
    simp only [List.length_cons] at hl
    rcases Nat.eq_zero_or_pos vs.length with h0 | h0
    · obtain rfl := List.length_eq_zero_iff.mp h0
      simp only [Memory.writeBytes, Memory.read_write, List.length_cons, List.length_nil]
      by_cases hb : b = a
      · subst hb; simp
      · have : b.toNat ≠ a.toNat := fun h => hb (BitVec.eq_of_toNat_eq h)
        rw [if_neg hb, dif_neg (by omega)]
    · have ha : (a + 1#16).toNat = a.toNat + 1 := by
        simp only [BitVec.toNat_add, BitVec.toNat_ofNat]; omega
      rw [Memory.writeBytes, ih _ _ (by omega)]
      simp only [ha, Memory.read_write, List.length_cons]
      by_cases hb : b = a
      · subst hb; simp
      · have hb' : b.toNat ≠ a.toNat := fun h => hb (BitVec.eq_of_toNat_eq h)
        by_cases hin : a.toNat + 1 ≤ b.toNat ∧ b.toNat < a.toNat + 1 + vs.length
        · rw [dif_pos hin, dif_pos (by omega)]
          have : b.toNat - a.toNat = (b.toNat - (a.toNat + 1)) + 1 := by omega
          simp only [this, List.getElem_cons_succ]
        · rw [dif_neg hin, dif_neg (by omega), if_neg hb]

end Sys2Proof.Machine
end

