-- ==== Sys2Proof/Laws/HostPort.lean ====
section
/-!
SUPPORT. What a host command does when it is accepted, that is, in a state that is not RUNNING (spec
60_exceptions.md R239), and the memory a load leaves (70_reset_and_hazards.md R257).
-/

namespace Sys2Proof.Machine

theorem hostCommand_running {s : State} (h : s.runState = .running) (c : HostCommand) :
    hostCommand c s = .refused .hostWhileRunning := by
  simp [hostCommand, h]

theorem hostCommand_accepted {s : State} (h : s.runState ≠ .running) (c : HostCommand) :
    hostCommand c s =
      match c with
      | .load bytes => hostLoad bytes s
      | .reset => .next (resetUnit s)
      | .run => hostRun s
      | .memRead _ => .next s
      | .memWrite a v => .next (s.write a v)
      | .loadAndRun bytes => hostLoadAndRun bytes s := by
  unfold hostCommand
  split
  · exact absurd ‹_› h
  · rfl

theorem hostMemRead_accepted {s : State} (h : s.runState ≠ .running) (a : Word) :
    hostMemRead a s = .ok (s.read a) := by
  unfold hostMemRead
  split
  · exact absurd ‹_› h
  · rfl

/-- A load changes memory and nothing else (R257). -/
theorem loadProgram_eq (bytes : List Byte) (s : State) :
    loadProgram bytes s =
      { s with mem := (s.mem.writeBytes Config.programBase bytes).writeWord Config.resetVector
                        Config.programBase } := rfl

/-- A reset keeps memory (R253). -/
theorem resetUnit_mem (s : State) : (resetUnit s).mem = s.mem := rfl

/-- The state after reset of a unit on whose memory nothing was written is `State.reset` (R256). -/
theorem resetUnit_created : resetUnit State.created = State.reset := rfl

end Sys2Proof.Machine
end

