-- ==== Sys2Proof/Laws/State.lean ====
section
/-! SUPPORT. One lemma per field per named update of State, so that no proof unfolds a record update. -/

namespace Sys2Proof.Machine

@[simp] theorem State.setA_a (st : State) (v : Byte) : (st.setA v).a = v := rfl
@[simp] theorem State.setA_x (st : State) (v : Byte) : (st.setA v).x = st.x := rfl
@[simp] theorem State.setA_y (st : State) (v : Byte) : (st.setA v).y = st.y := rfl
@[simp] theorem State.setA_sp (st : State) (v : Byte) : (st.setA v).sp = st.sp := rfl
@[simp] theorem State.setA_pc (st : State) (v : Byte) : (st.setA v).pc = st.pc := rfl
@[simp] theorem State.setA_p (st : State) (v : Byte) : (st.setA v).p = st.p := rfl
@[simp] theorem State.setA_mem (st : State) (v : Byte) : (st.setA v).mem = st.mem := rfl
@[simp] theorem State.setA_runState (st : State) (v : Byte) : (st.setA v).runState = st.runState := rfl
@[simp] theorem State.setA_error (st : State) (v : Byte) : (st.setA v).error = st.error := rfl
@[simp] theorem State.setA_pcd (st : State) (v : Byte) : (st.setA v).pcd = st.pcd := rfl
@[simp] theorem State.setA_wasReset (st : State) (v : Byte) : (st.setA v).wasReset = st.wasReset := rfl
@[simp] theorem State.setX_a (st : State) (v : Byte) : (st.setX v).a = st.a := rfl
@[simp] theorem State.setX_x (st : State) (v : Byte) : (st.setX v).x = v := rfl
@[simp] theorem State.setX_y (st : State) (v : Byte) : (st.setX v).y = st.y := rfl
@[simp] theorem State.setX_sp (st : State) (v : Byte) : (st.setX v).sp = st.sp := rfl
@[simp] theorem State.setX_pc (st : State) (v : Byte) : (st.setX v).pc = st.pc := rfl
@[simp] theorem State.setX_p (st : State) (v : Byte) : (st.setX v).p = st.p := rfl
@[simp] theorem State.setX_mem (st : State) (v : Byte) : (st.setX v).mem = st.mem := rfl
@[simp] theorem State.setX_runState (st : State) (v : Byte) : (st.setX v).runState = st.runState := rfl
@[simp] theorem State.setX_error (st : State) (v : Byte) : (st.setX v).error = st.error := rfl
@[simp] theorem State.setX_pcd (st : State) (v : Byte) : (st.setX v).pcd = st.pcd := rfl
@[simp] theorem State.setX_wasReset (st : State) (v : Byte) : (st.setX v).wasReset = st.wasReset := rfl
@[simp] theorem State.setY_a (st : State) (v : Byte) : (st.setY v).a = st.a := rfl
@[simp] theorem State.setY_x (st : State) (v : Byte) : (st.setY v).x = st.x := rfl
@[simp] theorem State.setY_y (st : State) (v : Byte) : (st.setY v).y = v := rfl
@[simp] theorem State.setY_sp (st : State) (v : Byte) : (st.setY v).sp = st.sp := rfl
@[simp] theorem State.setY_pc (st : State) (v : Byte) : (st.setY v).pc = st.pc := rfl
@[simp] theorem State.setY_p (st : State) (v : Byte) : (st.setY v).p = st.p := rfl
@[simp] theorem State.setY_mem (st : State) (v : Byte) : (st.setY v).mem = st.mem := rfl
@[simp] theorem State.setY_runState (st : State) (v : Byte) : (st.setY v).runState = st.runState := rfl
@[simp] theorem State.setY_error (st : State) (v : Byte) : (st.setY v).error = st.error := rfl
@[simp] theorem State.setY_pcd (st : State) (v : Byte) : (st.setY v).pcd = st.pcd := rfl
@[simp] theorem State.setY_wasReset (st : State) (v : Byte) : (st.setY v).wasReset = st.wasReset := rfl
@[simp] theorem State.setSp_a (st : State) (v : Byte) : (st.setSp v).a = st.a := rfl
@[simp] theorem State.setSp_x (st : State) (v : Byte) : (st.setSp v).x = st.x := rfl
@[simp] theorem State.setSp_y (st : State) (v : Byte) : (st.setSp v).y = st.y := rfl
@[simp] theorem State.setSp_sp (st : State) (v : Byte) : (st.setSp v).sp = v := rfl
@[simp] theorem State.setSp_pc (st : State) (v : Byte) : (st.setSp v).pc = st.pc := rfl
@[simp] theorem State.setSp_p (st : State) (v : Byte) : (st.setSp v).p = st.p := rfl
@[simp] theorem State.setSp_mem (st : State) (v : Byte) : (st.setSp v).mem = st.mem := rfl
@[simp] theorem State.setSp_runState (st : State) (v : Byte) : (st.setSp v).runState = st.runState := rfl
@[simp] theorem State.setSp_error (st : State) (v : Byte) : (st.setSp v).error = st.error := rfl
@[simp] theorem State.setSp_pcd (st : State) (v : Byte) : (st.setSp v).pcd = st.pcd := rfl
@[simp] theorem State.setSp_wasReset (st : State) (v : Byte) : (st.setSp v).wasReset = st.wasReset := rfl
@[simp] theorem State.setPc_a (st : State) (v : Word) : (st.setPc v).a = st.a := rfl
@[simp] theorem State.setPc_x (st : State) (v : Word) : (st.setPc v).x = st.x := rfl
@[simp] theorem State.setPc_y (st : State) (v : Word) : (st.setPc v).y = st.y := rfl
@[simp] theorem State.setPc_sp (st : State) (v : Word) : (st.setPc v).sp = st.sp := rfl
@[simp] theorem State.setPc_pc (st : State) (v : Word) : (st.setPc v).pc = v := rfl
@[simp] theorem State.setPc_p (st : State) (v : Word) : (st.setPc v).p = st.p := rfl
@[simp] theorem State.setPc_mem (st : State) (v : Word) : (st.setPc v).mem = st.mem := rfl
@[simp] theorem State.setPc_runState (st : State) (v : Word) : (st.setPc v).runState = st.runState := rfl
@[simp] theorem State.setPc_error (st : State) (v : Word) : (st.setPc v).error = st.error := rfl
@[simp] theorem State.setPc_pcd (st : State) (v : Word) : (st.setPc v).pcd = st.pcd := rfl
@[simp] theorem State.setPc_wasReset (st : State) (v : Word) : (st.setPc v).wasReset = st.wasReset := rfl
@[simp] theorem State.setP_a (st : State) (v : Byte) : (st.setP v).a = st.a := rfl
@[simp] theorem State.setP_x (st : State) (v : Byte) : (st.setP v).x = st.x := rfl
@[simp] theorem State.setP_y (st : State) (v : Byte) : (st.setP v).y = st.y := rfl
@[simp] theorem State.setP_sp (st : State) (v : Byte) : (st.setP v).sp = st.sp := rfl
@[simp] theorem State.setP_pc (st : State) (v : Byte) : (st.setP v).pc = st.pc := rfl
@[simp] theorem State.setP_p (st : State) (v : Byte) : (st.setP v).p = v := rfl
@[simp] theorem State.setP_mem (st : State) (v : Byte) : (st.setP v).mem = st.mem := rfl
@[simp] theorem State.setP_runState (st : State) (v : Byte) : (st.setP v).runState = st.runState := rfl
@[simp] theorem State.setP_error (st : State) (v : Byte) : (st.setP v).error = st.error := rfl
@[simp] theorem State.setP_pcd (st : State) (v : Byte) : (st.setP v).pcd = st.pcd := rfl
@[simp] theorem State.setP_wasReset (st : State) (v : Byte) : (st.setP v).wasReset = st.wasReset := rfl
@[simp] theorem State.setMem_a (st : State) (v : Memory) : (st.setMem v).a = st.a := rfl
@[simp] theorem State.setMem_x (st : State) (v : Memory) : (st.setMem v).x = st.x := rfl
@[simp] theorem State.setMem_y (st : State) (v : Memory) : (st.setMem v).y = st.y := rfl
@[simp] theorem State.setMem_sp (st : State) (v : Memory) : (st.setMem v).sp = st.sp := rfl
@[simp] theorem State.setMem_pc (st : State) (v : Memory) : (st.setMem v).pc = st.pc := rfl
@[simp] theorem State.setMem_p (st : State) (v : Memory) : (st.setMem v).p = st.p := rfl
@[simp] theorem State.setMem_mem (st : State) (v : Memory) : (st.setMem v).mem = v := rfl
@[simp] theorem State.setMem_runState (st : State) (v : Memory) : (st.setMem v).runState = st.runState := rfl
@[simp] theorem State.setMem_error (st : State) (v : Memory) : (st.setMem v).error = st.error := rfl
@[simp] theorem State.setMem_pcd (st : State) (v : Memory) : (st.setMem v).pcd = st.pcd := rfl
@[simp] theorem State.setMem_wasReset (st : State) (v : Memory) : (st.setMem v).wasReset = st.wasReset := rfl
@[simp] theorem State.setRunState_a (st : State) (v : RunState) : (st.setRunState v).a = st.a := rfl
@[simp] theorem State.setRunState_x (st : State) (v : RunState) : (st.setRunState v).x = st.x := rfl
@[simp] theorem State.setRunState_y (st : State) (v : RunState) : (st.setRunState v).y = st.y := rfl
@[simp] theorem State.setRunState_sp (st : State) (v : RunState) : (st.setRunState v).sp = st.sp := rfl
@[simp] theorem State.setRunState_pc (st : State) (v : RunState) : (st.setRunState v).pc = st.pc := rfl
@[simp] theorem State.setRunState_p (st : State) (v : RunState) : (st.setRunState v).p = st.p := rfl
@[simp] theorem State.setRunState_mem (st : State) (v : RunState) : (st.setRunState v).mem = st.mem := rfl
@[simp] theorem State.setRunState_runState (st : State) (v : RunState) : (st.setRunState v).runState = v := rfl
@[simp] theorem State.setRunState_error (st : State) (v : RunState) : (st.setRunState v).error = st.error := rfl
@[simp] theorem State.setRunState_pcd (st : State) (v : RunState) : (st.setRunState v).pcd = st.pcd := rfl
@[simp] theorem State.setRunState_wasReset (st : State) (v : RunState) : (st.setRunState v).wasReset = st.wasReset := rfl
@[simp] theorem State.setError_a (st : State) (v : Option FatalError) : (st.setError v).a = st.a := rfl
@[simp] theorem State.setError_x (st : State) (v : Option FatalError) : (st.setError v).x = st.x := rfl
@[simp] theorem State.setError_y (st : State) (v : Option FatalError) : (st.setError v).y = st.y := rfl
@[simp] theorem State.setError_sp (st : State) (v : Option FatalError) : (st.setError v).sp = st.sp := rfl
@[simp] theorem State.setError_pc (st : State) (v : Option FatalError) : (st.setError v).pc = st.pc := rfl
@[simp] theorem State.setError_p (st : State) (v : Option FatalError) : (st.setError v).p = st.p := rfl
@[simp] theorem State.setError_mem (st : State) (v : Option FatalError) : (st.setError v).mem = st.mem := rfl
@[simp] theorem State.setError_runState (st : State) (v : Option FatalError) : (st.setError v).runState = st.runState := rfl
@[simp] theorem State.setError_error (st : State) (v : Option FatalError) : (st.setError v).error = v := rfl
@[simp] theorem State.setError_pcd (st : State) (v : Option FatalError) : (st.setError v).pcd = st.pcd := rfl
@[simp] theorem State.setError_wasReset (st : State) (v : Option FatalError) : (st.setError v).wasReset = st.wasReset := rfl
@[simp] theorem State.setPcd_a (st : State) (v : Word) : (st.setPcd v).a = st.a := rfl
@[simp] theorem State.setPcd_x (st : State) (v : Word) : (st.setPcd v).x = st.x := rfl
@[simp] theorem State.setPcd_y (st : State) (v : Word) : (st.setPcd v).y = st.y := rfl
@[simp] theorem State.setPcd_sp (st : State) (v : Word) : (st.setPcd v).sp = st.sp := rfl
@[simp] theorem State.setPcd_pc (st : State) (v : Word) : (st.setPcd v).pc = st.pc := rfl
@[simp] theorem State.setPcd_p (st : State) (v : Word) : (st.setPcd v).p = st.p := rfl
@[simp] theorem State.setPcd_mem (st : State) (v : Word) : (st.setPcd v).mem = st.mem := rfl
@[simp] theorem State.setPcd_runState (st : State) (v : Word) : (st.setPcd v).runState = st.runState := rfl
@[simp] theorem State.setPcd_error (st : State) (v : Word) : (st.setPcd v).error = st.error := rfl
@[simp] theorem State.setPcd_pcd (st : State) (v : Word) : (st.setPcd v).pcd = v := rfl
@[simp] theorem State.setPcd_wasReset (st : State) (v : Word) : (st.setPcd v).wasReset = st.wasReset := rfl
@[simp] theorem State.setWasReset_a (st : State) (v : Bool) : (st.setWasReset v).a = st.a := rfl
@[simp] theorem State.setWasReset_x (st : State) (v : Bool) : (st.setWasReset v).x = st.x := rfl
@[simp] theorem State.setWasReset_y (st : State) (v : Bool) : (st.setWasReset v).y = st.y := rfl
@[simp] theorem State.setWasReset_sp (st : State) (v : Bool) : (st.setWasReset v).sp = st.sp := rfl
@[simp] theorem State.setWasReset_pc (st : State) (v : Bool) : (st.setWasReset v).pc = st.pc := rfl
@[simp] theorem State.setWasReset_p (st : State) (v : Bool) : (st.setWasReset v).p = st.p := rfl
@[simp] theorem State.setWasReset_mem (st : State) (v : Bool) : (st.setWasReset v).mem = st.mem := rfl
@[simp] theorem State.setWasReset_runState (st : State) (v : Bool) : (st.setWasReset v).runState = st.runState := rfl
@[simp] theorem State.setWasReset_error (st : State) (v : Bool) : (st.setWasReset v).error = st.error := rfl
@[simp] theorem State.setWasReset_pcd (st : State) (v : Bool) : (st.setWasReset v).pcd = st.pcd := rfl
@[simp] theorem State.setWasReset_wasReset (st : State) (v : Bool) : (st.setWasReset v).wasReset = v := rfl

/-- Two states with equal fields are equal; the way to an equation between states. -/
@[ext] theorem State.ext_fields {s t : State} (ha : s.a = t.a) (hx : s.x = t.x) (hy : s.y = t.y)
    (hsp : s.sp = t.sp) (hpc : s.pc = t.pc) (hp : s.p = t.p) (hmem : s.mem = t.mem)
    (hrun : s.runState = t.runState) (herr : s.error = t.error) (hpcd : s.pcd = t.pcd)
    (hwas : s.wasReset = t.wasReset) : s = t := by
  cases s; cases t; simp_all

end Sys2Proof.Machine
end

