-- ==== Sys2Proof/Laws/Ops.lean ====
section
/-!
SUPPORT. What the shared operations of Machine/Ops.lean do: the stack primitives (spec 48_stack.md), the end of
a run (60_exceptions.md R229, R230), and the claims' plain spelling of words and stack addresses.
-/

namespace Sys2Proof.Machine

/-! ### Words and stack addresses in the claims' spelling -/

/-- The model's `word` is `hi * 256 + lo`. -/
theorem word_eq_hiLo (hi lo : Byte) : word hi lo = hiLo hi lo := by
  have h₁ := hi.isLt
  have h₂ := lo.isLt
  apply BitVec.eq_of_toNat_eq
  rw [toNat_word, hiLo, BitVec.toNat_ofNat]
  omega

/-- The model's stack address is `0x0100 + S`. -/
theorem stackAddr_eq_stackCell (sp : Byte) : stackAddr sp = stackCell sp := by
  have h := sp.isLt
  apply BitVec.eq_of_toNat_eq
  rw [stackAddr, toNat_word, stackCell, BitVec.toNat_ofNat]
  show 1 * 256 + _ = _
  omega

theorem toNat_stackAddr (sp : Byte) : (stackAddr sp).toNat = 256 + sp.toNat := by
  rw [stackAddr, toNat_word]
  show 1 * 256 + _ = _
  omega

/-- Different values of S name different cells (R26). -/
theorem stackAddr_inj {a b : Byte} : stackAddr a = stackAddr b ↔ a = b := by
  refine ⟨fun h => BitVec.eq_of_toNat_eq ?_, fun h => by rw [h]⟩
  have := congrArg BitVec.toNat h
  rw [toNat_stackAddr, toNat_stackAddr] at this
  omega

/-! ### Memory in a state -/

theorem State.read_eq (st : State) (a : Word) : st.read a = st.mem.read a := rfl

theorem State.read_write (st : State) (a b : Word) (v : Byte) :
    (st.write a v).read b = if b = a then v else st.read b :=
  Memory.read_write st.mem a b v

@[simp] theorem State.read_setSp (st : State) (v : Byte) (a : Word) :
    (st.setSp v).read a = st.read a := rfl

@[simp] theorem State.read_setP (st : State) (v : Byte) (a : Word) :
    (st.setP v).read a = st.read a := rfl

@[simp] theorem State.write_sp (st : State) (a : Word) (v : Byte) : (st.write a v).sp = st.sp := rfl

/-! ### The stack -/

@[simp] theorem push_sp (v : Byte) (st : State) : (push v st).sp = st.sp - 1#8 := rfl

/-- A push writes the one cell S names (R195). -/
theorem read_push (v : Byte) (st : State) (b : Word) :
    (push v st).read b = if b = stackAddr st.sp then v else st.read b :=
  State.read_write st _ b v

/-- A push keeps everything but S and memory (R195). -/
theorem push_eq (v : Byte) (st : State) :
    push v st = { st with sp := st.sp - 1#8, mem := st.mem.write (stackAddr st.sp) v } := rfl

@[simp] theorem popped_sp (st : State) : (popped st).sp = st.sp + 1#8 := rfl

@[simp] theorem popped_read (st : State) (a : Word) : (popped st).read a = st.read a := rfl

/-- A byte pushed is the byte popped (R196). -/
@[simp] theorem popByte_push (v : Byte) (st : State) : popByte (push v st) = v := by
  simp [popByte, read_push]

/-- Push then pop restores S (R196). -/
@[simp] theorem popped_push_sp (v : Byte) (st : State) : (popped (push v st)).sp = st.sp := by
  simp

/-- Pushing a word keeps everything but S and memory (R197). -/
theorem pushWord_eq (w : Word) (st : State) :
    pushWord w st =
      { st with
        sp := st.sp - 1#8 - 1#8
        mem := (st.mem.write (stackAddr st.sp) (highByte w)).write (stackAddr (st.sp - 1#8)) (lowByte w) } :=
  rfl

/-- The two cells a word is pushed to, and no others (R197). -/
theorem read_pushWord (w : Word) (st : State) (b : Word) :
    (pushWord w st).read b =
      if b = stackAddr (st.sp - 1#8) then lowByte w
      else if b = stackAddr st.sp then highByte w else st.read b := by
  simp only [pushWord, read_push, push_sp]

/-- A word pushed is the word popped, for every S, the wrap included (R198). -/
theorem popWord_pushWord (w : Word) (st : State) : popWord (pushWord w st) = w := by
  have h : st.sp ≠ st.sp - 1#8 := by
    intro h
    have h₁ := congrArg BitVec.toNat h
    have h₂ := st.sp.isLt
    simp only [BitVec.toNat_sub, BitVec.toNat_ofNat] at h₁
    omega
  have hsp : (pushWord w st).sp = st.sp - 1#8 - 1#8 := rfl
  simp [popWord, popByte, read_pushWord, hsp, stackAddr_inj, h]

/-! ### The end of a run -/

/-- A fatal error writes the run state and the error latch and nothing else (R230). -/
theorem raiseFatal_eq (e : FatalError) (st : State) :
    raiseFatal e st = { st with runState := .faulted, error := some e } := rfl

/-- A halt writes the run state and nothing else (R229). -/
theorem haltRun_eq (st : State) : haltRun st = { st with runState := .idle } := rfl

/-- Step 4 changes PC at most (R94). -/
theorem skipOperands_eq (n : Nat) (st : State) :
    skipOperands n st =
      { st with pc := if st.runState = .running ∧ st.pc = st.pcd then st.pc + BitVec.ofNat 16 (n - 1)
                      else st.pc } := by
  unfold skipOperands
  split <;> rfl

/-! ### Extensions, and the claims' stack cells -/

theorem toNat_zext16 (b : Byte) : (zext16 b).toNat = b.toNat := by
  have := b.isLt
  rw [zext16, BitVec.toNat_setWidth]
  omega

/-- `zext_16(b)` as a number (R10). -/
theorem zext16_eq (b : Byte) : zext16 b = BitVec.ofNat 16 b.toNat := by
  apply BitVec.eq_of_toNat_eq
  have := b.isLt
  rw [toNat_zext16, BitVec.toNat_ofNat]
  omega

/-- `sext_16(b)` as a number (R10). -/
theorem sext16_eq (b : Byte) : sext16 b = BitVec.ofInt 16 b.toInt := rfl

theorem toNat_stackCell (sp : Byte) : (stackCell sp).toNat = 256 + sp.toNat := by
  rw [← stackAddr_eq_stackCell, toNat_stackAddr]

/-- Two pushes in a row write two cells. -/
theorem stackCell_ne_pred (sp : Byte) : stackCell sp ≠ stackCell (sp - 1#8) := by
  rw [← stackAddr_eq_stackCell, ← stackAddr_eq_stackCell, Ne, stackAddr_inj]
  intro h
  have h₁ := congrArg BitVec.toNat h
  have h₂ := sp.isLt
  simp only [BitVec.toNat_sub, BitVec.toNat_ofNat] at h₁
  omega

end Sys2Proof.Machine
end

