-- ==== Sys2Proof/Laws/Operands.lean ====
section
/-!
SUPPORT. What the resolver and the operand forms do (spec 40_step_and_addressing.md R96 to R107): one lemma
each. A form with a resolver mode always answers a next state.
-/

namespace Sys2Proof.Machine

/-- The nine modes but `noneAddressing` resolve in every state (R96). -/
theorem resolve_isSome {mode : AddrMode} (h : mode ≠ .noneAddressing) (st : State) :
    ∃ ea, resolve mode st = some ea := by
  cases mode <;> first | exact ⟨_, rfl⟩ | exact absurd rfl h

/-- The effective address depends on PC, X, Y and memory and on nothing else (R96). -/
theorem resolve_congr {s t : State} (hpc : t.pc = s.pc) (hx : t.x = s.x) (hy : t.y = s.y)
    (hm : t.mem = s.mem) (mode : AddrMode) : resolve mode t = resolve mode s := by
  cases mode <;> simp only [resolve, operandByte, operandWord, zeroPageWord, State.read, hpc, hx, hy, hm]

/-- An instruction form with an address performs its effect there. -/
theorem withAddress_next {mode : AddrMode} (h : mode ≠ .noneAddressing) (st : State)
    (effect : Word → State) :
    ∃ ea, resolve mode st = some ea ∧ withAddress mode st effect = .next (effect ea) := by
  obtain ⟨ea, hea⟩ := resolve_isSome h st
  exact ⟨ea, hea, by rw [withAddress, hea]⟩

/-- A reading form performs its effect on the byte at the effective address (R107). -/
theorem withOperand_next {mode : AddrMode} (h : mode ≠ .noneAddressing) (st : State)
    (effect : Byte → State) :
    ∃ ea, resolve mode st = some ea ∧ withOperand mode st effect = .next (effect (st.mem.read ea)) :=
  withAddress_next h st _

/-- A storing form writes its byte at the effective address and keeps all else (R107). -/
theorem storeOperand_next {mode : AddrMode} (h : mode ≠ .noneAddressing) (v : Byte) (st : State) :
    ∃ ea, resolve mode st = some ea ∧
      storeOperand mode v st = .next { st with mem := st.mem.write ea v } :=
  withAddress_next h st _

/-- A read-modify-write form changes the byte at the effective address and P, and keeps all else
(R107). -/
theorem modifyOperand_next {mode : AddrMode} (h : mode ≠ .noneAddressing) (change flags : Byte → Byte)
    (st : State) :
    ∃ ea, resolve mode st = some ea ∧
      modifyOperand mode change flags st =
        .next { st with mem := st.mem.write ea (change (st.mem.read ea)), p := flags (st.mem.read ea) } :=
  withAddress_next h st _

/-- Asking for an address that does not exist is the fatal error (R106). -/
theorem withAddress_noneAddressing (st : State) (effect : Word → State) :
    withAddress .noneAddressing st effect = .next (raiseFatal .unsupportedAddressingMode st) := rfl

/-- Storing a byte, in the claims' terms. -/
theorem byteStored_write (m : Memory) (a : Word) (v : Byte) : ByteStored m (m.write a v) a v :=
  ⟨Memory.read_write_same m a v, fun _ hb => Memory.read_write_other m v hb⟩

end Sys2Proof.Machine
end

