-- ==== Sys2Proof/Laws/PerInstr.lean ====
section
/-!
SUPPORT. Per instruction: the decoder's matrix (spec 30_encoding.md R78) and the encoder's rows (R79) agree on
its opcode byte, and its length is one of 1, 2, 3 (R73).
-/

namespace Sys2Proof.Laws.TableRow

/-- The opcode byte an instruction is encoded with is looked up as that instruction, and its length is
between 1 and 3. -/
def Statement (i : Instr) : Prop := lookup i.opcode = some i ∧ 1 ≤ i.length ∧ i.length ≤ 3

theorem ldaImm : Statement .ldaImm := ⟨by decide, by decide, by decide⟩
theorem ldaZp : Statement .ldaZp := ⟨by decide, by decide, by decide⟩
theorem ldaZpX : Statement .ldaZpX := ⟨by decide, by decide, by decide⟩
theorem ldaAbs : Statement .ldaAbs := ⟨by decide, by decide, by decide⟩
theorem ldaAbsX : Statement .ldaAbsX := ⟨by decide, by decide, by decide⟩
theorem ldaAbsY : Statement .ldaAbsY := ⟨by decide, by decide, by decide⟩
theorem ldaIndX : Statement .ldaIndX := ⟨by decide, by decide, by decide⟩
theorem ldaIndY : Statement .ldaIndY := ⟨by decide, by decide, by decide⟩
theorem ldxImm : Statement .ldxImm := ⟨by decide, by decide, by decide⟩
theorem ldxZp : Statement .ldxZp := ⟨by decide, by decide, by decide⟩
theorem ldxZpY : Statement .ldxZpY := ⟨by decide, by decide, by decide⟩
theorem ldxAbs : Statement .ldxAbs := ⟨by decide, by decide, by decide⟩
theorem ldxAbsY : Statement .ldxAbsY := ⟨by decide, by decide, by decide⟩
theorem ldyImm : Statement .ldyImm := ⟨by decide, by decide, by decide⟩
theorem ldyZp : Statement .ldyZp := ⟨by decide, by decide, by decide⟩
theorem ldyZpX : Statement .ldyZpX := ⟨by decide, by decide, by decide⟩
theorem ldyAbs : Statement .ldyAbs := ⟨by decide, by decide, by decide⟩
theorem ldyAbsX : Statement .ldyAbsX := ⟨by decide, by decide, by decide⟩
theorem tax : Statement .tax := ⟨by decide, by decide, by decide⟩
theorem tay : Statement .tay := ⟨by decide, by decide, by decide⟩
theorem txa : Statement .txa := ⟨by decide, by decide, by decide⟩
theorem tsx : Statement .tsx := ⟨by decide, by decide, by decide⟩
theorem txs : Statement .txs := ⟨by decide, by decide, by decide⟩
theorem tya : Statement .tya := ⟨by decide, by decide, by decide⟩
theorem staZp : Statement .staZp := ⟨by decide, by decide, by decide⟩
theorem staZpX : Statement .staZpX := ⟨by decide, by decide, by decide⟩
theorem staAbs : Statement .staAbs := ⟨by decide, by decide, by decide⟩
theorem staAbsX : Statement .staAbsX := ⟨by decide, by decide, by decide⟩
theorem staAbsY : Statement .staAbsY := ⟨by decide, by decide, by decide⟩
theorem staIndX : Statement .staIndX := ⟨by decide, by decide, by decide⟩
theorem staIndY : Statement .staIndY := ⟨by decide, by decide, by decide⟩
theorem stxZp : Statement .stxZp := ⟨by decide, by decide, by decide⟩
theorem stxZpY : Statement .stxZpY := ⟨by decide, by decide, by decide⟩
theorem stxAbs : Statement .stxAbs := ⟨by decide, by decide, by decide⟩
theorem styZp : Statement .styZp := ⟨by decide, by decide, by decide⟩
theorem styZpX : Statement .styZpX := ⟨by decide, by decide, by decide⟩
theorem styAbs : Statement .styAbs := ⟨by decide, by decide, by decide⟩
theorem adcImm : Statement .adcImm := ⟨by decide, by decide, by decide⟩
theorem adcZp : Statement .adcZp := ⟨by decide, by decide, by decide⟩
theorem adcZpX : Statement .adcZpX := ⟨by decide, by decide, by decide⟩
theorem adcAbs : Statement .adcAbs := ⟨by decide, by decide, by decide⟩
theorem adcAbsX : Statement .adcAbsX := ⟨by decide, by decide, by decide⟩
theorem adcAbsY : Statement .adcAbsY := ⟨by decide, by decide, by decide⟩
theorem adcIndX : Statement .adcIndX := ⟨by decide, by decide, by decide⟩
theorem adcIndY : Statement .adcIndY := ⟨by decide, by decide, by decide⟩
theorem sbcImm : Statement .sbcImm := ⟨by decide, by decide, by decide⟩
theorem sbcZp : Statement .sbcZp := ⟨by decide, by decide, by decide⟩
theorem sbcZpX : Statement .sbcZpX := ⟨by decide, by decide, by decide⟩
theorem sbcAbs : Statement .sbcAbs := ⟨by decide, by decide, by decide⟩
theorem sbcAbsX : Statement .sbcAbsX := ⟨by decide, by decide, by decide⟩
theorem sbcAbsY : Statement .sbcAbsY := ⟨by decide, by decide, by decide⟩
theorem sbcIndX : Statement .sbcIndX := ⟨by decide, by decide, by decide⟩
theorem sbcIndY : Statement .sbcIndY := ⟨by decide, by decide, by decide⟩
theorem andImm : Statement .andImm := ⟨by decide, by decide, by decide⟩
theorem andZp : Statement .andZp := ⟨by decide, by decide, by decide⟩
theorem andZpX : Statement .andZpX := ⟨by decide, by decide, by decide⟩
theorem andAbs : Statement .andAbs := ⟨by decide, by decide, by decide⟩
theorem andAbsX : Statement .andAbsX := ⟨by decide, by decide, by decide⟩
theorem andAbsY : Statement .andAbsY := ⟨by decide, by decide, by decide⟩
theorem andIndX : Statement .andIndX := ⟨by decide, by decide, by decide⟩
theorem andIndY : Statement .andIndY := ⟨by decide, by decide, by decide⟩
theorem eorImm : Statement .eorImm := ⟨by decide, by decide, by decide⟩
theorem eorZp : Statement .eorZp := ⟨by decide, by decide, by decide⟩
theorem eorZpX : Statement .eorZpX := ⟨by decide, by decide, by decide⟩
theorem eorAbs : Statement .eorAbs := ⟨by decide, by decide, by decide⟩
theorem eorAbsX : Statement .eorAbsX := ⟨by decide, by decide, by decide⟩
theorem eorAbsY : Statement .eorAbsY := ⟨by decide, by decide, by decide⟩
theorem eorIndX : Statement .eorIndX := ⟨by decide, by decide, by decide⟩
theorem eorIndY : Statement .eorIndY := ⟨by decide, by decide, by decide⟩
theorem oraImm : Statement .oraImm := ⟨by decide, by decide, by decide⟩
theorem oraZp : Statement .oraZp := ⟨by decide, by decide, by decide⟩
theorem oraZpX : Statement .oraZpX := ⟨by decide, by decide, by decide⟩
theorem oraAbs : Statement .oraAbs := ⟨by decide, by decide, by decide⟩
theorem oraAbsX : Statement .oraAbsX := ⟨by decide, by decide, by decide⟩
theorem oraAbsY : Statement .oraAbsY := ⟨by decide, by decide, by decide⟩
theorem oraIndX : Statement .oraIndX := ⟨by decide, by decide, by decide⟩
theorem oraIndY : Statement .oraIndY := ⟨by decide, by decide, by decide⟩
theorem aslAcc : Statement .aslAcc := ⟨by decide, by decide, by decide⟩
theorem aslZp : Statement .aslZp := ⟨by decide, by decide, by decide⟩
theorem aslZpX : Statement .aslZpX := ⟨by decide, by decide, by decide⟩
theorem aslAbs : Statement .aslAbs := ⟨by decide, by decide, by decide⟩
theorem aslAbsX : Statement .aslAbsX := ⟨by decide, by decide, by decide⟩
theorem lsrAcc : Statement .lsrAcc := ⟨by decide, by decide, by decide⟩
theorem lsrZp : Statement .lsrZp := ⟨by decide, by decide, by decide⟩
theorem lsrZpX : Statement .lsrZpX := ⟨by decide, by decide, by decide⟩
theorem lsrAbs : Statement .lsrAbs := ⟨by decide, by decide, by decide⟩
theorem lsrAbsX : Statement .lsrAbsX := ⟨by decide, by decide, by decide⟩
theorem rolAcc : Statement .rolAcc := ⟨by decide, by decide, by decide⟩
theorem rolZp : Statement .rolZp := ⟨by decide, by decide, by decide⟩
theorem rolZpX : Statement .rolZpX := ⟨by decide, by decide, by decide⟩
theorem rolAbs : Statement .rolAbs := ⟨by decide, by decide, by decide⟩
theorem rolAbsX : Statement .rolAbsX := ⟨by decide, by decide, by decide⟩
theorem rorAcc : Statement .rorAcc := ⟨by decide, by decide, by decide⟩
theorem rorZp : Statement .rorZp := ⟨by decide, by decide, by decide⟩
theorem rorZpX : Statement .rorZpX := ⟨by decide, by decide, by decide⟩
theorem rorAbs : Statement .rorAbs := ⟨by decide, by decide, by decide⟩
theorem rorAbsX : Statement .rorAbsX := ⟨by decide, by decide, by decide⟩
theorem inx : Statement .inx := ⟨by decide, by decide, by decide⟩
theorem iny : Statement .iny := ⟨by decide, by decide, by decide⟩
theorem dex : Statement .dex := ⟨by decide, by decide, by decide⟩
theorem dey : Statement .dey := ⟨by decide, by decide, by decide⟩
theorem incZp : Statement .incZp := ⟨by decide, by decide, by decide⟩
theorem incZpX : Statement .incZpX := ⟨by decide, by decide, by decide⟩
theorem incAbs : Statement .incAbs := ⟨by decide, by decide, by decide⟩
theorem incAbsX : Statement .incAbsX := ⟨by decide, by decide, by decide⟩
theorem decZp : Statement .decZp := ⟨by decide, by decide, by decide⟩
theorem decZpX : Statement .decZpX := ⟨by decide, by decide, by decide⟩
theorem decAbs : Statement .decAbs := ⟨by decide, by decide, by decide⟩
theorem decAbsX : Statement .decAbsX := ⟨by decide, by decide, by decide⟩
theorem cmpImm : Statement .cmpImm := ⟨by decide, by decide, by decide⟩
theorem cmpZp : Statement .cmpZp := ⟨by decide, by decide, by decide⟩
theorem cmpZpX : Statement .cmpZpX := ⟨by decide, by decide, by decide⟩
theorem cmpAbs : Statement .cmpAbs := ⟨by decide, by decide, by decide⟩
theorem cmpAbsX : Statement .cmpAbsX := ⟨by decide, by decide, by decide⟩
theorem cmpAbsY : Statement .cmpAbsY := ⟨by decide, by decide, by decide⟩
theorem cmpIndX : Statement .cmpIndX := ⟨by decide, by decide, by decide⟩
theorem cmpIndY : Statement .cmpIndY := ⟨by decide, by decide, by decide⟩
theorem cpxImm : Statement .cpxImm := ⟨by decide, by decide, by decide⟩
theorem cpxZp : Statement .cpxZp := ⟨by decide, by decide, by decide⟩
theorem cpxAbs : Statement .cpxAbs := ⟨by decide, by decide, by decide⟩
theorem cpyImm : Statement .cpyImm := ⟨by decide, by decide, by decide⟩
theorem cpyZp : Statement .cpyZp := ⟨by decide, by decide, by decide⟩
theorem cpyAbs : Statement .cpyAbs := ⟨by decide, by decide, by decide⟩
theorem bitZp : Statement .bitZp := ⟨by decide, by decide, by decide⟩
theorem bitAbs : Statement .bitAbs := ⟨by decide, by decide, by decide⟩
theorem bcc : Statement .bcc := ⟨by decide, by decide, by decide⟩
theorem bcs : Statement .bcs := ⟨by decide, by decide, by decide⟩
theorem bne : Statement .bne := ⟨by decide, by decide, by decide⟩
theorem beq : Statement .beq := ⟨by decide, by decide, by decide⟩
theorem bpl : Statement .bpl := ⟨by decide, by decide, by decide⟩
theorem bmi : Statement .bmi := ⟨by decide, by decide, by decide⟩
theorem bvc : Statement .bvc := ⟨by decide, by decide, by decide⟩
theorem bvs : Statement .bvs := ⟨by decide, by decide, by decide⟩
theorem jmpAbs : Statement .jmpAbs := ⟨by decide, by decide, by decide⟩
theorem jmpInd : Statement .jmpInd := ⟨by decide, by decide, by decide⟩
theorem jsr : Statement .jsr := ⟨by decide, by decide, by decide⟩
theorem rts : Statement .rts := ⟨by decide, by decide, by decide⟩
theorem rti : Statement .rti := ⟨by decide, by decide, by decide⟩
theorem pha : Statement .pha := ⟨by decide, by decide, by decide⟩
theorem pla : Statement .pla := ⟨by decide, by decide, by decide⟩
theorem php : Statement .php := ⟨by decide, by decide, by decide⟩
theorem plp : Statement .plp := ⟨by decide, by decide, by decide⟩
theorem clc : Statement .clc := ⟨by decide, by decide, by decide⟩
theorem sec : Statement .sec := ⟨by decide, by decide, by decide⟩
theorem cli : Statement .cli := ⟨by decide, by decide, by decide⟩
theorem sei : Statement .sei := ⟨by decide, by decide, by decide⟩
theorem cld : Statement .cld := ⟨by decide, by decide, by decide⟩
theorem sed : Statement .sed := ⟨by decide, by decide, by decide⟩
theorem clv : Statement .clv := ⟨by decide, by decide, by decide⟩
theorem nop : Statement .nop := ⟨by decide, by decide, by decide⟩
theorem brk : Statement .brk := ⟨by decide, by decide, by decide⟩

end Sys2Proof.Laws.TableRow
end

