-- ==== Sys2Proof/Laws/Step.lean ====
section
/-!
SUPPORT. What a step does in each run state (spec 40_step_and_addressing.md R90, 10_state.md R43), and how a claim
about a form's effect is obtained from what `exec` answers.
-/

namespace Sys2Proof.Machine

theorem step_idle {s : State} (h : s.runState = .idle) : step s = .next s := by
  rw [step, h]

theorem step_faulted {s : State} (h : s.runState = .faulted) : step s = .fault (.runAborted s.error) := by
  rw [step, h]

theorem step_running {s : State} (h : s.runState = .running) :
    step s = decodeAndRun (s.mem.read s.pc) (inDispatch s) := by
  rw [step, h]; rfl

/-- An unassigned opcode byte raises the fatal error after the fetch (R92, R221). -/
theorem step_unassigned {s : State} (h : s.runState = .running) (hl : lookup (s.mem.read s.pc) = none) :
    step s = .next (raiseFatal (.unrecognizedOpcode (s.mem.read s.pc)) (inDispatch s)) := by
  rw [step_running h, decodeAndRun, hl]

/-- An assigned opcode byte runs its instruction, then step 4 (R90). -/
theorem step_assigned {s t : State} {i : Instr} (h : s.runState = .running)
    (hl : lookup (s.mem.read s.pc) = some i) (he : exec i (inDispatch s) = .next t) :
    step s = .next (skipOperands i.length t) := by
  rw [step_running h, decodeAndRun, hl]
  simp only [he]

/-- What a step makes of an effect that keeps pcd, and keeps the run state or belongs to a one-byte
instruction. -/
theorem skipOperands_claim {s t : State} {n : Nat} (hn : 1 ≤ n) (hpcd : t.pcd = s.pc + 1#16)
    (hrun : t.runState = .running ∨ n = 1) :
    skipOperands n t =
      { t with pc := if t.pc = s.pc + 1#16 then s.pc + BitVec.ofNat 16 n else t.pc } := by
  have hadd : s.pc + 1#16 + BitVec.ofNat 16 (n - 1) = s.pc + BitVec.ofNat 16 n := by
    rw [BitVec.add_assoc]
    congr 1
    apply BitVec.eq_of_toNat_eq
    simp only [BitVec.toNat_add, BitVec.toNat_ofNat]
    omega
  rw [skipOperands_eq, hpcd]
  by_cases hpc : t.pc = s.pc + 1#16
  · simp only [hpc, and_true, if_true, hadd]
    rcases hrun with h | h
    · simp [h]
    · subst h
      simp
  · simp [hpc]

/-- A form carries out an effect if `exec` answers, from every state, a next state so related that
keeps pcd, and keeps the run state unless the instruction is one byte long. -/
theorem performs_of_exec {f : Form} {effect : State → State → Prop}
    (hrow : lookup f.code = some f.instr ∧ f.instr.length = f.len ∧ f.instr.mode = f.mode)
    (hlen : 1 ≤ f.len)
    (h : ∀ s : State, ∃ t, exec f.instr s = .next t ∧ effect s t ∧ t.pcd = s.pcd ∧
      (t.runState = s.runState ∨ f.len = 1)) : Performs f effect := by
  refine ⟨hrow, fun s => ?_, fun s hs hc => ?_⟩
  · obtain ⟨t, he, heff, -⟩ := h s
    exact ⟨t, he, heff⟩
  · obtain ⟨t, he, heff, hpcd, hrun⟩ := h (inDispatch s)
    refine ⟨t, _, he, heff, step_assigned hs (by rw [hc]; exact hrow.1) he, ?_⟩
    rw [hrow.2.1, skipOperands_claim hlen hpcd (hrun.imp (fun e => e.trans hs) id)]

/-! ### Claims about the kinds of forms -/

@[simp] theorem inDispatch_pc (s : State) : (inDispatch s).pc = s.pc + 1#16 := rfl
@[simp] theorem inDispatch_pcd (s : State) : (inDispatch s).pcd = s.pc + 1#16 := rfl
@[simp] theorem inDispatch_mem (s : State) : (inDispatch s).mem = s.mem := rfl
@[simp] theorem inDispatch_a (s : State) : (inDispatch s).a = s.a := rfl
@[simp] theorem inDispatch_x (s : State) : (inDispatch s).x = s.x := rfl
@[simp] theorem inDispatch_y (s : State) : (inDispatch s).y = s.y := rfl
@[simp] theorem inDispatch_sp (s : State) : (inDispatch s).sp = s.sp := rfl
@[simp] theorem inDispatch_p (s : State) : (inDispatch s).p = s.p := rfl
@[simp] theorem inDispatch_runState (s : State) : (inDispatch s).runState = s.runState := rfl
@[simp] theorem inDispatch_error (s : State) : (inDispatch s).error = s.error := rfl
@[simp] theorem inDispatch_wasReset (s : State) : (inDispatch s).wasReset = s.wasReset := rfl

/-- A form that reads an operand: what is asked of its effect (R107). -/
theorem performs_operand {f : Form} {effect : State → State → Prop} {op : State → Byte → State}
    (hrow : lookup f.code = some f.instr ∧ f.instr.length = f.len ∧ f.instr.mode = f.mode)
    (hlen : 1 ≤ f.len) (hm : f.mode ≠ .noneAddressing)
    (hx : ∀ s, exec f.instr s = withOperand f.mode s (op s))
    (h : ∀ s ea, resolve f.mode s = some ea → effect s (op s (s.mem.read ea)) ∧
      (op s (s.mem.read ea)).pcd = s.pcd ∧ (op s (s.mem.read ea)).runState = s.runState) :
    Performs f effect := by
  refine performs_of_exec hrow hlen fun s => ?_
  obtain ⟨ea, hea, he⟩ := withOperand_next hm s (op s)
  obtain ⟨h1, h2, h3⟩ := h s ea hea
  exact ⟨_, (hx s).trans he, h1, h2, .inl h3⟩

/-- A form that changes a byte of memory in place: what is asked of its effect (R107). -/
theorem performs_modify {f : Form} {effect : State → State → Prop} {change flags : State → Byte → Byte}
    (hrow : lookup f.code = some f.instr ∧ f.instr.length = f.len ∧ f.instr.mode = f.mode)
    (hlen : 1 ≤ f.len) (hm : f.mode ≠ .noneAddressing)
    (hx : ∀ s, exec f.instr s = modifyOperand f.mode (change s) (flags s) s)
    (h : ∀ s ea, resolve f.mode s = some ea → ∀ m, ByteStored s.mem m ea (change s (s.mem.read ea)) →
      effect s { s with mem := m, p := flags s (s.mem.read ea) }) : Performs f effect := by
  refine performs_of_exec hrow hlen fun s => ?_
  obtain ⟨ea, hea, he⟩ := modifyOperand_next hm (change s) (flags s) s
  exact ⟨_, (hx s).trans he, h s ea hea _ (byteStored_write _ _ _), rfl, .inl rfl⟩

/-- A form that stores a byte: what is asked of its effect (R107). -/
theorem performs_store {f : Form} {effect : State → State → Prop} {v : State → Byte}
    (hrow : lookup f.code = some f.instr ∧ f.instr.length = f.len ∧ f.instr.mode = f.mode)
    (hlen : 1 ≤ f.len) (hm : f.mode ≠ .noneAddressing)
    (hx : ∀ s, exec f.instr s = storeOperand f.mode (v s) s)
    (h : ∀ s ea, resolve f.mode s = some ea → ∀ m, ByteStored s.mem m ea (v s) →
      effect s { s with mem := m }) : Performs f effect := by
  refine performs_of_exec hrow hlen fun s => ?_
  obtain ⟨ea, hea, he⟩ := storeOperand_next hm (v s) s
  exact ⟨_, (hx s).trans he, h s ea hea _ (byteStored_write _ _ _), rfl, .inl rfl⟩

/-- Where JSR's pushes leave memory (R188, R197). -/
theorem read_jumpToSubroutine (s : State) (b : Word) :
    (jumpToSubroutine s).mem.read b =
      if b = stackCell (s.sp - 1#8) then lowByte (s.pc + 1#16)
      else if b = stackCell s.sp then highByte (s.pc + 1#16) else s.mem.read b := by
  rw [← stackAddr_eq_stackCell, ← stackAddr_eq_stackCell]
  exact read_pushWord _ _ _

end Sys2Proof.Machine
end

