-- ==== Sys2Proof/Tests/Slice0.lean ====
section
/-!
SUPPORT. The author's own tests. Their expected results are the spec's: the opcode bytes of spec/opcode_table.json
written out in binary, the single-step vectors of 95_test_vectors.md section 2 (named by their id), and,
at the end, a witness for the hypotheses of each statement that has some.
-/

namespace Sys2Proof.Tests

open Sys2Proof Sys2Proof.Machine

/-! ### Well-formed syntax -/

/-- One operand byte too few, and one too many, for each length an instruction can have. -/
theorem test_ill_formed_refused :
    InstrBytes.wellFormed ⟨.ldaImm, []⟩ = false ∧ InstrBytes.wellFormed ⟨.ldaImm, [0x01, 0x02]⟩ = false ∧
    InstrBytes.wellFormed ⟨.jsr, [0x01]⟩ = false ∧ InstrBytes.wellFormed ⟨.jsr, [1, 2, 3]⟩ = false ∧
    InstrBytes.wellFormed ⟨.nop, [0x00]⟩ = false ∧ InstrBytes.wellFormed ⟨.aslAcc, [0x00]⟩ = false := by
  decide

theorem test_well_formed_accepted :
    InstrBytes.wellFormed ⟨.ldaImm, [0x01]⟩ = true ∧ InstrBytes.wellFormed ⟨.jsr, [0x01, 0x02]⟩ = true ∧
    InstrBytes.wellFormed ⟨.nop, []⟩ = true := by
  decide

/-! ### Decoding -/

/-- Each byte is looked up as the instruction beside it. -/
abbrev Decodes (l : List (Byte × Instr)) : Prop := ∀ r ∈ l, lookup r.1 = some r.2

/-- Load, transfer, store (41_load_store_transfer.md): the opcode bytes as the opcode table writes them. -/
theorem test_decode_load_store_transfer : Decodes
    [(0b10101001, .ldaImm), (0b10100101, .ldaZp), (0b10110101, .ldaZpX), (0b10101101, .ldaAbs),
     (0b10111101, .ldaAbsX), (0b10111001, .ldaAbsY), (0b10100001, .ldaIndX),
     (0b10110001, .ldaIndY), (0b10100010, .ldxImm), (0b10100110, .ldxZp), (0b10110110, .ldxZpY),
     (0b10101110, .ldxAbs), (0b10111110, .ldxAbsY), (0b10100000, .ldyImm), (0b10100100, .ldyZp),
     (0b10110100, .ldyZpX), (0b10101100, .ldyAbs), (0b10111100, .ldyAbsX), (0b10101010, .tax),
     (0b10101000, .tay), (0b10001010, .txa), (0b10111010, .tsx), (0b10011010, .txs),
     (0b10011000, .tya), (0b10000101, .staZp), (0b10010101, .staZpX), (0b10001101, .staAbs),
     (0b10011101, .staAbsX), (0b10011001, .staAbsY), (0b10000001, .staIndX),
     (0b10010001, .staIndY), (0b10000110, .stxZp), (0b10010110, .stxZpY), (0b10001110, .stxAbs),
     (0b10000100, .styZp), (0b10010100, .styZpX), (0b10001100, .styAbs)] := by decide

/-- Arithmetic and logical (42_arithmetic_logic.md): the opcode bytes as the opcode table writes them. -/
theorem test_decode_arithmetic_logic : Decodes
    [(0b01101001, .adcImm), (0b01100101, .adcZp), (0b01110101, .adcZpX), (0b01101101, .adcAbs),
     (0b01111101, .adcAbsX), (0b01111001, .adcAbsY), (0b01100001, .adcIndX),
     (0b01110001, .adcIndY), (0b11101001, .sbcImm), (0b11100101, .sbcZp), (0b11110101, .sbcZpX),
     (0b11101101, .sbcAbs), (0b11111101, .sbcAbsX), (0b11111001, .sbcAbsY),
     (0b11100001, .sbcIndX), (0b11110001, .sbcIndY), (0b00101001, .andImm), (0b00100101, .andZp),
     (0b00110101, .andZpX), (0b00101101, .andAbs), (0b00111101, .andAbsX), (0b00111001, .andAbsY),
     (0b00100001, .andIndX), (0b00110001, .andIndY), (0b01001001, .eorImm), (0b01000101, .eorZp),
     (0b01010101, .eorZpX), (0b01001101, .eorAbs), (0b01011101, .eorAbsX), (0b01011001, .eorAbsY),
     (0b01000001, .eorIndX), (0b01010001, .eorIndY), (0b00001001, .oraImm), (0b00000101, .oraZp),
     (0b00010101, .oraZpX), (0b00001101, .oraAbs), (0b00011101, .oraAbsX), (0b00011001, .oraAbsY),
     (0b00000001, .oraIndX), (0b00010001, .oraIndY)] := by decide

/-- Shifts and rotates (43_shift_rotate.md): the opcode bytes as the opcode table writes them. -/
theorem test_decode_shift_rotate : Decodes
    [(0b00001010, .aslAcc), (0b00000110, .aslZp), (0b00010110, .aslZpX), (0b00001110, .aslAbs),
     (0b00011110, .aslAbsX), (0b01001010, .lsrAcc), (0b01000110, .lsrZp), (0b01010110, .lsrZpX),
     (0b01001110, .lsrAbs), (0b01011110, .lsrAbsX), (0b00101010, .rolAcc), (0b00100110, .rolZp),
     (0b00110110, .rolZpX), (0b00101110, .rolAbs), (0b00111110, .rolAbsX), (0b01101010, .rorAcc),
     (0b01100110, .rorZp), (0b01110110, .rorZpX), (0b01101110, .rorAbs), (0b01111110, .rorAbsX)] := by decide

/-- Increment and decrement (44_increment_decrement.md): the opcode bytes as the opcode table writes them. -/
theorem test_decode_increment_decrement : Decodes
    [(0b11101000, .inx), (0b11001000, .iny), (0b11001010, .dex), (0b10001000, .dey),
     (0b11100110, .incZp), (0b11110110, .incZpX), (0b11101110, .incAbs), (0b11111110, .incAbsX),
     (0b11000110, .decZp), (0b11010110, .decZpX), (0b11001110, .decAbs), (0b11011110, .decAbsX)] := by decide

/-- Compare and bit test (45_compare_bit.md): the opcode bytes as the opcode table writes them. -/
theorem test_decode_compare_bit : Decodes
    [(0b11001001, .cmpImm), (0b11000101, .cmpZp), (0b11010101, .cmpZpX), (0b11001101, .cmpAbs),
     (0b11011101, .cmpAbsX), (0b11011001, .cmpAbsY), (0b11000001, .cmpIndX),
     (0b11010001, .cmpIndY), (0b11100000, .cpxImm), (0b11100100, .cpxZp), (0b11101100, .cpxAbs),
     (0b11000000, .cpyImm), (0b11000100, .cpyZp), (0b11001100, .cpyAbs), (0b00100100, .bitZp),
     (0b00101100, .bitAbs)] := by decide

/-- Branches (46_branch.md): the opcode bytes as the opcode table writes them. -/
theorem test_decode_branch : Decodes
    [(0b10010000, .bcc), (0b10110000, .bcs), (0b11010000, .bne), (0b11110000, .beq),
     (0b00010000, .bpl), (0b00110000, .bmi), (0b01010000, .bvc), (0b01110000, .bvs)] := by decide

/-- Jumps, calls, returns (47_jump_call_return.md): the opcode bytes as the opcode table writes them. -/
theorem test_decode_jump_call_return : Decodes
    [(0b01001100, .jmpAbs), (0b01101100, .jmpInd), (0b00100000, .jsr), (0b01100000, .rts),
     (0b01000000, .rti)] := by decide

/-- Stack (48_stack.md): the opcode bytes as the opcode table writes them. -/
theorem test_decode_stack : Decodes
    [(0b01001000, .pha), (0b01101000, .pla), (0b00001000, .php), (0b00101000, .plp)] := by decide

/-- Flag set and clear, no-op, halt (49_flag_nop_brk.md): the opcode bytes as the opcode table writes them. -/
theorem test_decode_flag_nop_brk : Decodes
    [(0b00011000, .clc), (0b00111000, .sec), (0b01011000, .cli), (0b01111000, .sei),
     (0b11011000, .cld), (0b11111000, .sed), (0b10111000, .clv), (0b11101010, .nop),
     (0b00000000, .brk)] := by decide

/-- R81: an unassigned byte next to assigned ones, and a truncated instruction, are turned away by
name. -/
theorem test_decode_turns_away :
    lookup 0b00000010 = none ∧ lookup 0b11111111 = none ∧ lookup 0b10011110 = none ∧
    decode [0x02, 0x00] = .error (.unrecognizedOpcode 0x02) ∧
    decode [0xAD, 0x34] = .error (.truncated .ldaAbs) ∧ decode [] = .error .noBytes := by
  decide

/-- R71: a table word's byte 0 is the opcode byte; bits above the row's are zero. -/
theorem test_decode_table_word :
    decodeTableWord 24 0x1234AD = some .ldaAbs ∧ decodeTableWord 16 0x05A9 = some .ldaImm ∧
    decodeTableWord 8 0x9900 = some .brk ∧ decodeTableWord 8 0x02 = none := by
  decide

/-! ### One step -/

/-- A RUNNING unit in the reset state but for PC, with the bytes at PC and the cells listed. -/
def unit (pc : Word) (bytes : List Byte) (cells : List (Word × Byte)) : State :=
  { State.reset with
    pc := pc
    mem := cells.foldl (fun m c => m.write c.1 c.2) (Memory.writeBytes Memory.empty pc bytes)
    runState := .running }

/-- The registers and the run state, to compare a step's outcome with a vector. -/
structure Regs where
  a : Byte
  x : Byte
  y : Byte
  s : Byte
  p : Byte
  pc : Word
  run : RunState
  deriving DecidableEq, Repr

abbrev regs (a x y s p : Byte) (pc : Word) (run : RunState) : Regs := ⟨a, x, y, s, p, pc, run⟩

/-- What a step answered: the registers and the cells asked for. -/
def shown (o : Result) (cells : List Word) : Option (Regs × List Byte) :=
  match o with
  | .next t => some (regs t.a t.x t.y t.sp t.p t.pc t.runState, cells.map t.mem.read)
  | _ => none

/-- A2: LDA $10. -/
theorem test_ldaZp_A2 :
    shown (step (unit 0x8000 [0xA5, 0x10] [(0x0010, 0x55)])) [] =
      some (regs 0x55 0x00 0x00 0xFD 0x24 0x8002 .running, []) := by decide

/-- A3: LDA $F0,X. -/
theorem test_ldaZpX_A3 :
    shown (step { unit 0x8000 [0xB5, 0xF0] [(0x0010, 0x77), (0x0110, 0x99)] with x := 0x20 }) [] =
      some (regs 0x77 0x20 0x00 0xFD 0x24 0x8002 .running, []) := by decide

/-- A4: LDX $F0,Y. -/
theorem test_ldxZpY_A4 :
    shown (step { unit 0x8000 [0xB6, 0xF0] [(0x00FF, 0x80)] with y := 0x0F }) [] =
      some (regs 0x00 0x80 0x0F 0xFD 0xA4 0x8002 .running, []) := by decide

/-- A5: LDA $1234. -/
theorem test_ldaAbs_A5 :
    shown (step (unit 0x8000 [0xAD, 0x34, 0x12] [(0x1234, 0x42)])) [] =
      some (regs 0x42 0x00 0x00 0xFD 0x24 0x8003 .running, []) := by decide

/-- A6: LDA $FFF0,X. -/
theorem test_ldaAbsX_A6 :
    shown (step { unit 0x8000 [0xBD, 0xF0, 0xFF] [(0x0010, 0x66)] with x := 0x20 }) [] =
      some (regs 0x66 0x20 0x00 0xFD 0x24 0x8003 .running, []) := by decide

/-- A7: LDA $12FF,Y. -/
theorem test_ldaAbsY_A7 :
    shown (step { unit 0x8000 [0xB9, 0xFF, 0x12] [(0x1300, 0x01)] with y := 0x01 }) [] =
      some (regs 0x01 0x00 0x01 0xFD 0x24 0x8003 .running, []) := by decide

/-- A8: LDA ($FE,X). -/
theorem test_ldaIndX_A8 :
    shown (step { unit 0x8000 [0xA1, 0xFE] [(0x0000, 0x12), (0x00FF, 0x34), (0x0100, 0x56), (0x1234, 0xAB), (0x5634, 0xCD)] with x := 0x01 }) [] =
      some (regs 0xAB 0x01 0x00 0xFD 0xA4 0x8002 .running, []) := by decide

/-- A10: LDA ($FF),Y. -/
theorem test_ldaIndY_A10 :
    shown (step { unit 0x8000 [0xB1, 0xFF] [(0x0000, 0xFF), (0x0008, 0x3C), (0x00FF, 0xF8), (0x0100, 0x00), (0x0108, 0xEE)] with y := 0x10 }) [] =
      some (regs 0x3C 0x00 0x10 0xFD 0x24 0x8002 .running, []) := by decide

/-- A12: STA ($40),Y. -/
theorem test_staIndY_A12 :
    shown (step { unit 0x8000 [0x91, 0x40] [(0x0040, 0x01), (0x0041, 0x03)] with a := 0x9C, y := 0xFF }) [0x0400] =
      some (regs 0x9C 0x00 0xFF 0xFD 0x24 0x8002 .running, [0x9C]) := by decide

/-- A13: LDA $2010, the instruction lying across FFFE, FFFF, 0000. -/
theorem test_ldaAbs_A13 :
    shown (step (unit 0xFFFE [0xAD, 0x10] [(0x0000, 0x20), (0x2010, 0x44)])) [] =
      some (regs 0x44 0x00 0x00 0xFD 0x24 0x0001 .running, []) := by decide

/-- A14: LDA $10,X with X=FF. -/
theorem test_ldaZpX_A14 :
    shown (step { unit 0x8000 [0xB5, 0x10] [(0x000F, 0x21), (0x010F, 0x99)] with x := 0xFF }) [] =
      some (regs 0x21 0xFF 0x00 0xFD 0x24 0x8002 .running, []) := by decide

/-- A15: STA $FFFF,X with X=01. -/
theorem test_staAbsX_A15 :
    shown (step { unit 0x8000 [0x9D, 0xFF, 0xFF] [] with a := 0x5A, x := 0x01 }) [0x0000] =
      some (regs 0x5A 0x01 0x00 0xFD 0x24 0x8003 .running, [0x5A]) := by decide

/-- L1: LDA #$00. -/
theorem test_ldaImm_L1 :
    shown (step { unit 0x8000 [0xA9, 0x00] [] with a := 0x55 }) [] =
      some (regs 0x00 0x00 0x00 0xFD 0x26 0x8002 .running, []) := by decide

/-- L2: LDA #$80. -/
theorem test_ldaImm_L2 :
    shown (step (unit 0x8000 [0xA9, 0x80] [])) [] =
      some (regs 0x80 0x00 0x00 0xFD 0xA4 0x8002 .running, []) := by decide

/-- L3: LDX #$FF. -/
theorem test_ldxImm_L3 :
    shown (step (unit 0x8000 [0xA2, 0xFF] [])) [] =
      some (regs 0x00 0xFF 0x00 0xFD 0xA4 0x8002 .running, []) := by decide

/-- L4: LDY #$00. -/
theorem test_ldyImm_L4 :
    shown (step { unit 0x8000 [0xA0, 0x00] [] with y := 0x01 }) [] =
      some (regs 0x00 0x00 0x00 0xFD 0x26 0x8002 .running, []) := by decide

/-- L5: LDY $10,X. -/
theorem test_ldyZpX_L5 :
    shown (step { unit 0x8000 [0xB4, 0x10] [(0x0011, 0x7F)] with x := 0x01 }) [] =
      some (regs 0x00 0x01 0x7F 0xFD 0x24 0x8002 .running, []) := by decide

/-- L6: LDX $0200,Y. -/
theorem test_ldxAbsY_L6 :
    shown (step { unit 0x8000 [0xBE, 0x00, 0x02] [(0x0203, 0x00)] with x := 0x09, y := 0x03 }) [] =
      some (regs 0x00 0x00 0x03 0xFD 0x26 0x8003 .running, []) := by decide

/-- L7: TAX. -/
theorem test_tax_L7 :
    shown (step { unit 0x8000 [0xAA] [] with a := 0xC0 }) [] =
      some (regs 0xC0 0xC0 0x00 0xFD 0xA4 0x8001 .running, []) := by decide

/-- L8: TAY. -/
theorem test_tay_L8 :
    shown (step { unit 0x8000 [0xA8] [] with y := 0x33 }) [] =
      some (regs 0x00 0x00 0x00 0xFD 0x26 0x8001 .running, []) := by decide

/-- L9: TXA. -/
theorem test_txa_L9 :
    shown (step { unit 0x8000 [0x8A] [] with a := 0x01, x := 0x80 }) [] =
      some (regs 0x80 0x80 0x00 0xFD 0xA4 0x8001 .running, []) := by decide

/-- L10: TYA. -/
theorem test_tya_L10 :
    shown (step { unit 0x8000 [0x98] [] with a := 0xFF, y := 0x7F, p := 0xA4 }) [] =
      some (regs 0x7F 0x00 0x7F 0xFD 0x24 0x8001 .running, []) := by decide

/-- L11: TSX. -/
theorem test_tsx_L11 :
    shown (step (unit 0x8000 [0xBA] [])) [] =
      some (regs 0x00 0xFD 0x00 0xFD 0xA4 0x8001 .running, []) := by decide

/-- L12: TSX. -/
theorem test_tsx_L12 :
    shown (step { unit 0x8000 [0xBA] [] with x := 0x44, sp := 0x00 }) [] =
      some (regs 0x00 0x00 0x00 0x00 0x26 0x8001 .running, []) := by decide

/-- L13: TXS. -/
theorem test_txs_L13 :
    shown (step (unit 0x8000 [0x9A] [])) [] =
      some (regs 0x00 0x00 0x00 0x00 0x24 0x8001 .running, []) := by decide

/-- L16: STA $0200,X. -/
theorem test_staAbsX_L16 :
    shown (step { unit 0x8000 [0x9D, 0x00, 0x02] [] with a := 0xAA, x := 0x05 }) [0x0205] =
      some (regs 0xAA 0x05 0x00 0xFD 0x24 0x8003 .running, [0xAA]) := by decide

/-- L17: STA ($20,X). -/
theorem test_staIndX_L17 :
    shown (step { unit 0x8000 [0x81, 0x20] [(0x0000, 0x78), (0x0001, 0x56)] with a := 0x11, x := 0xE0 }) [0x5678] =
      some (regs 0x11 0xE0 0x00 0xFD 0x24 0x8002 .running, [0x11]) := by decide

/-- L18: STX $F0,Y. -/
theorem test_stxZpY_L18 :
    shown (step { unit 0x8000 [0x96, 0xF0] [] with x := 0x80, y := 0x20 }) [0x0010] =
      some (regs 0x00 0x80 0x20 0xFD 0x24 0x8002 .running, [0x80]) := by decide

/-- L19: STY $8001 (self-modifying). -/
theorem test_styAbs_L19 :
    shown (step { unit 0x8000 [0x8C, 0x01, 0x80] [] with y := 0xEA }) [0x8001] =
      some (regs 0x00 0x00 0xEA 0xFD 0x24 0x8003 .running, [0xEA]) := by decide

/-- L20: STA $01FD (store into the stack page). -/
theorem test_staAbs_L20 :
    shown (step { unit 0x8000 [0x8D, 0xFD, 0x01] [] with a := 0x3C }) [0x01FD] =
      some (regs 0x3C 0x00 0x00 0xFD 0x24 0x8003 .running, [0x3C]) := by decide

/-- AR3: ADC #$FF. -/
theorem test_adcImm_AR3 :
    shown (step { unit 0x8000 [0x69, 0xFF] [] with a := 0xFF, p := 0x25 }) [] =
      some (regs 0xFF 0x00 0x00 0xFD 0xA5 0x8002 .running, []) := by decide

/-- AR5: ADC #$80. -/
theorem test_adcImm_AR5 :
    shown (step { unit 0x8000 [0x69, 0x80] [] with a := 0x80 }) [] =
      some (regs 0x00 0x00 0x00 0xFD 0x67 0x8002 .running, []) := by decide

/-- AR15: ADC $10. -/
theorem test_adcZp_AR15 :
    shown (step { unit 0x8000 [0x65, 0x10] [(0x0010, 0x01)] with a := 0x01, p := 0x25 }) [] =
      some (regs 0x03 0x00 0x00 0xFD 0x24 0x8002 .running, []) := by decide

/-- AR17: SBC #$B0. -/
theorem test_sbcImm_AR17 :
    shown (step { unit 0x8000 [0xE9, 0xB0] [] with a := 0x50, p := 0x25 }) [] =
      some (regs 0xA0 0x00 0x00 0xFD 0xE4 0x8002 .running, []) := by decide

/-- AR20: SBC #$05. -/
theorem test_sbcImm_AR20 :
    shown (step { unit 0x8000 [0xE9, 0x05] [] with a := 0x05 }) [] =
      some (regs 0xFF 0x00 0x00 0xFD 0xA4 0x8002 .running, []) := by decide

/-- AR28: SBC ($30),Y. -/
theorem test_sbcIndY_AR28 :
    shown (step { unit 0x8000 [0xF1, 0x30] [(0x0030, 0xFF), (0x0031, 0x02), (0x0300, 0x01)] with a := 0x10, y := 0x01, p := 0x25 }) [] =
      some (regs 0x0F 0x00 0x01 0xFD 0x25 0x8002 .running, []) := by decide

/-- LG2: AND #$80. -/
theorem test_andImm_LG2 :
    shown (step { unit 0x8000 [0x29, 0x80] [] with a := 0xFF, p := 0x25 }) [] =
      some (regs 0x80 0x00 0x00 0xFD 0xA5 0x8002 .running, []) := by decide

/-- LG3: AND $10. -/
theorem test_andZp_LG3 :
    shown (step { unit 0x8000 [0x25, 0x10] [(0x0010, 0x66)] with a := 0x3C }) [] =
      some (regs 0x24 0x00 0x00 0xFD 0x24 0x8002 .running, []) := by decide

/-- LG5: EOR #$55. -/
theorem test_eorImm_LG5 :
    shown (step { unit 0x8000 [0x49, 0x55] [] with a := 0x55, p := 0x65 }) [] =
      some (regs 0x00 0x00 0x00 0xFD 0x67 0x8002 .running, []) := by decide

/-- LG6: EOR $0300,Y. -/
theorem test_eorAbsY_LG6 :
    shown (step { unit 0x8000 [0x59, 0x00, 0x03] [(0x0310, 0x01)] with a := 0x81, y := 0x10 }) [] =
      some (regs 0x80 0x00 0x10 0xFD 0xA4 0x8003 .running, []) := by decide

/-- LG8: ORA #$80. -/
theorem test_oraImm_LG8 :
    shown (step { unit 0x8000 [0x09, 0x80] [] with a := 0x01 }) [] =
      some (regs 0x81 0x00 0x00 0xFD 0xA4 0x8002 .running, []) := by decide

/-- LG9: ORA ($10,X). -/
theorem test_oraIndX_LG9 :
    shown (step { unit 0x8000 [0x01, 0x10] [(0x0012, 0x00), (0x0013, 0x04), (0x0400, 0x0F)] with a := 0x10, x := 0x02 }) [] =
      some (regs 0x1F 0x02 0x00 0xFD 0x24 0x8002 .running, []) := by decide

/-- SH1: ASL A. -/
theorem test_aslAcc_SH1 :
    shown (step { unit 0x8000 [0x0A] [] with a := 0x81 }) [] =
      some (regs 0x02 0x00 0x00 0xFD 0x25 0x8001 .running, []) := by decide

/-- SH3: ASL A. -/
theorem test_aslAcc_SH3 :
    shown (step { unit 0x8000 [0x0A] [] with a := 0x40, p := 0x25 }) [] =
      some (regs 0x80 0x00 0x00 0xFD 0xA4 0x8001 .running, []) := by decide

/-- SH4: ASL $10. -/
theorem test_aslZp_SH4 :
    shown (step { unit 0x8000 [0x06, 0x10] [(0x0010, 0xC0)] with a := 0x77 }) [0x0010] =
      some (regs 0x77 0x00 0x00 0xFD 0xA5 0x8002 .running, [0x80]) := by decide

/-- SH5: LSR A. -/
theorem test_lsrAcc_SH5 :
    shown (step { unit 0x8000 [0x4A] [] with a := 0x01 }) [] =
      some (regs 0x00 0x00 0x00 0xFD 0x27 0x8001 .running, []) := by decide

/-- SH6: LSR A. -/
theorem test_lsrAcc_SH6 :
    shown (step { unit 0x8000 [0x4A] [] with a := 0x80, p := 0xA5 }) [] =
      some (regs 0x40 0x00 0x00 0xFD 0x24 0x8001 .running, []) := by decide

/-- SH7: LSR $0200,X. -/
theorem test_lsrAbsX_SH7 :
    shown (step { unit 0x8000 [0x5E, 0x00, 0x02] [(0x0201, 0xFF)] with x := 0x01 }) [0x0201] =
      some (regs 0x00 0x01 0x00 0xFD 0x25 0x8003 .running, [0x7F]) := by decide

/-- SH9: ROL A. -/
theorem test_rolAcc_SH9 :
    shown (step { unit 0x8000 [0x2A] [] with p := 0x25 }) [] =
      some (regs 0x01 0x00 0x00 0xFD 0x24 0x8001 .running, []) := by decide

/-- SH10: ROL A. -/
theorem test_rolAcc_SH10 :
    shown (step { unit 0x8000 [0x2A] [] with a := 0x7F, p := 0x25 }) [] =
      some (regs 0xFF 0x00 0x00 0xFD 0xA4 0x8001 .running, []) := by decide

/-- SH11: ROL $10,X. -/
theorem test_rolZpX_SH11 :
    shown (step { unit 0x8000 [0x36, 0x10] [(0x0008, 0x40)] with x := 0xF8, p := 0x25 }) [0x0008] =
      some (regs 0x00 0xF8 0x00 0xFD 0xA4 0x8002 .running, [0x81]) := by decide

/-- SH13: ROR A. -/
theorem test_rorAcc_SH13 :
    shown (step { unit 0x8000 [0x6A] [] with p := 0x25 }) [] =
      some (regs 0x80 0x00 0x00 0xFD 0xA4 0x8001 .running, []) := by decide

/-- SH14: ROR A. -/
theorem test_rorAcc_SH14 :
    shown (step { unit 0x8000 [0x6A] [] with a := 0x03, p := 0x25 }) [] =
      some (regs 0x81 0x00 0x00 0xFD 0xA5 0x8001 .running, []) := by decide

/-- SH15: ROR $1234. -/
theorem test_rorAbs_SH15 :
    shown (step (unit 0x8000 [0x6E, 0x34, 0x12] [(0x1234, 0x02)])) [0x1234] =
      some (regs 0x00 0x00 0x00 0xFD 0x24 0x8003 .running, [0x01]) := by decide

/-- ID1: INX. -/
theorem test_inx_ID1 :
    shown (step { unit 0x8000 [0xE8] [] with x := 0xFF, p := 0x25 }) [] =
      some (regs 0x00 0x00 0x00 0xFD 0x27 0x8001 .running, []) := by decide

/-- ID2: INX. -/
theorem test_inx_ID2 :
    shown (step { unit 0x8000 [0xE8] [] with x := 0x7F }) [] =
      some (regs 0x00 0x80 0x00 0xFD 0xA4 0x8001 .running, []) := by decide

/-- ID3: INY. -/
theorem test_iny_ID3 :
    shown (step (unit 0x8000 [0xC8] [])) [] =
      some (regs 0x00 0x00 0x01 0xFD 0x24 0x8001 .running, []) := by decide

/-- ID4: DEX. -/
theorem test_dex_ID4 :
    shown (step (unit 0x8000 [0xCA] [])) [] =
      some (regs 0x00 0xFF 0x00 0xFD 0xA4 0x8001 .running, []) := by decide

/-- ID6: DEY. -/
theorem test_dey_ID6 :
    shown (step { unit 0x8000 [0x88] [] with y := 0x80 }) [] =
      some (regs 0x00 0x00 0x7F 0xFD 0x24 0x8001 .running, []) := by decide

/-- ID7: INC $10. -/
theorem test_incZp_ID7 :
    shown (step { unit 0x8000 [0xE6, 0x10] [(0x0010, 0xFF)] with a := 0x55 }) [0x0010] =
      some (regs 0x55 0x00 0x00 0xFD 0x26 0x8002 .running, [0x00]) := by decide

/-- ID8: INC $0200,X. -/
theorem test_incAbsX_ID8 :
    shown (step { unit 0x8000 [0xFE, 0x00, 0x02] [(0x0202, 0x7F)] with x := 0x02 }) [0x0202] =
      some (regs 0x00 0x02 0x00 0xFD 0xA4 0x8003 .running, [0x80]) := by decide

/-- ID9: DEC $10,X. -/
theorem test_decZpX_ID9 :
    shown (step { unit 0x8000 [0xD6, 0x10] [(0x000F, 0x00)] with x := 0xFF }) [0x000F] =
      some (regs 0x00 0xFF 0x00 0xFD 0xA4 0x8002 .running, [0xFF]) := by decide

/-- ID10: DEC $1234. -/
theorem test_decAbs_ID10 :
    shown (step (unit 0x8000 [0xCE, 0x34, 0x12] [(0x1234, 0x01)])) [0x1234] =
      some (regs 0x00 0x00 0x00 0xFD 0x26 0x8003 .running, [0x00]) := by decide

/-- CP2: CMP #$11. -/
theorem test_cmpImm_CP2 :
    shown (step { unit 0x8000 [0xC9, 0x11] [] with a := 0x10, p := 0x25 }) [] =
      some (regs 0x10 0x00 0x00 0xFD 0xA4 0x8002 .running, []) := by decide

/-- CP6: CMP #$01 (V untouched). -/
theorem test_cmpImm_CP6 :
    shown (step { unit 0x8000 [0xC9, 0x01] [] with a := 0x80, p := 0x64 }) [] =
      some (regs 0x80 0x00 0x00 0xFD 0x65 0x8002 .running, []) := by decide

/-- CP7: CPX $10. -/
theorem test_cpxZp_CP7 :
    shown (step { unit 0x8000 [0xE4, 0x10] [(0x0010, 0x06)] with x := 0x05 }) [] =
      some (regs 0x00 0x05 0x00 0xFD 0xA4 0x8002 .running, []) := by decide

/-- CP9: CPY $0300. -/
theorem test_cpyAbs_CP9 :
    shown (step { unit 0x8000 [0xCC, 0x00, 0x03] [(0x0300, 0x7F)] with y := 0xFF }) [] =
      some (regs 0x00 0x00 0xFF 0xFD 0xA5 0x8003 .running, []) := by decide

/-- CP10: CPY #$80. -/
theorem test_cpyImm_CP10 :
    shown (step { unit 0x8000 [0xC0, 0x80] [] with y := 0x7F }) [] =
      some (regs 0x00 0x00 0x7F 0xFD 0xA4 0x8002 .running, []) := by decide

/-- BT1: BIT $10. -/
theorem test_bitZp_BT1 :
    shown (step { unit 0x8000 [0x24, 0x10] [(0x0010, 0xF0)] with a := 0x0F }) [] =
      some (regs 0x0F 0x00 0x00 0xFD 0xE6 0x8002 .running, []) := by decide

/-- BT3: BIT $10. -/
theorem test_bitZp_BT3 :
    shown (step { unit 0x8000 [0x24, 0x10] [(0x0010, 0x01)] with a := 0x01, p := 0xE4 }) [] =
      some (regs 0x01 0x00 0x00 0xFD 0x24 0x8002 .running, []) := by decide

/-- BT4: BIT $1234. -/
theorem test_bitAbs_BT4 :
    shown (step (unit 0x8000 [0x2C, 0x34, 0x12] [(0x1234, 0x80)])) [] =
      some (regs 0x00 0x00 0x00 0xFD 0xA6 0x8003 .running, []) := by decide

/-- BR1: BCC +4 (taken). -/
theorem test_bcc_BR1 :
    shown (step (unit 0x8000 [0x90, 0x04] [])) [] =
      some (regs 0x00 0x00 0x00 0xFD 0x24 0x8006 .running, []) := by decide

/-- BR2: BCC +4 (not taken). -/
theorem test_bcc_BR2 :
    shown (step { unit 0x8000 [0x90, 0x04] [] with p := 0x25 }) [] =
      some (regs 0x00 0x00 0x00 0xFD 0x25 0x8002 .running, []) := by decide

/-- BR3: BCS -4 (taken). -/
theorem test_bcs_BR3 :
    shown (step { unit 0x8000 [0xB0, 0xFC] [] with p := 0x25 }) [] =
      some (regs 0x00 0x00 0x00 0xFD 0x25 0x7FFE .running, []) := by decide

/-- BR17: BCS at FFFF (operand at 0000), taken +16. -/
theorem test_bcs_BR17 :
    shown (step { unit 0xFFFF [0xB0] [(0x0000, 0x10)] with p := 0x25 }) [] =
      some (regs 0x00 0x00 0x00 0xFD 0x25 0x0011 .running, []) := by decide

/-- BR4: BNE -5 (taken). -/
theorem test_bne_BR4 :
    shown (step (unit 0x8008 [0xD0, 0xFB] [])) [] =
      some (regs 0x00 0x00 0x00 0xFD 0x24 0x8005 .running, []) := by decide

/-- BR13: BNE -1 (taken, offset FF: falls through). -/
theorem test_bne_BR13 :
    shown (step (unit 0x8000 [0xD0, 0xFF] [])) [] =
      some (regs 0x00 0x00 0x00 0xFD 0x24 0x8002 .running, []) := by decide

/-- BR6: BEQ +127 (taken). -/
theorem test_beq_BR6 :
    shown (step { unit 0x8000 [0xF0, 0x7F] [] with p := 0x26 }) [] =
      some (regs 0x00 0x00 0x00 0xFD 0x26 0x8081 .running, []) := by decide

/-- BR8: BPL -128 (taken). -/
theorem test_bpl_BR8 :
    shown (step (unit 0x8000 [0x10, 0x80] [])) [] =
      some (regs 0x00 0x00 0x00 0xFD 0x24 0x7F82 .running, []) := by decide

/-- BR16: BPL +5 (not taken). -/
theorem test_bpl_BR16 :
    shown (step { unit 0x8000 [0x10, 0x05] [] with p := 0xA4 }) [] =
      some (regs 0x00 0x00 0x00 0xFD 0xA4 0x8002 .running, []) := by decide

/-- BR9: BMI -3 (taken, wraps below 0). -/
theorem test_bmi_BR9 :
    shown (step { unit 0x0000 [0x30, 0xFD] [] with p := 0xA4 }) [] =
      some (regs 0x00 0x00 0x00 0xFD 0xA4 0xFFFF .running, []) := by decide

/-- BR15: BMI +5 (not taken). -/
theorem test_bmi_BR15 :
    shown (step (unit 0x8000 [0x30, 0x05] [])) [] =
      some (regs 0x00 0x00 0x00 0xFD 0x24 0x8002 .running, []) := by decide

/-- BR10: BVC +32 (taken, wraps above FFFF). -/
theorem test_bvc_BR10 :
    shown (step (unit 0xFFF0 [0x50, 0x20] [])) [] =
      some (regs 0x00 0x00 0x00 0xFD 0x24 0x0012 .running, []) := by decide

/-- BR11: BVS +2 (taken). -/
theorem test_bvs_BR11 :
    shown (step { unit 0x8000 [0x70, 0x02] [] with p := 0x64 }) [] =
      some (regs 0x00 0x00 0x00 0xFD 0x64 0x8004 .running, []) := by decide

/-- BR12: BVS +2 (not taken). -/
theorem test_bvs_BR12 :
    shown (step (unit 0x8000 [0x70, 0x02] [])) [] =
      some (regs 0x00 0x00 0x00 0xFD 0x24 0x8002 .running, []) := by decide

/-- J1: JMP $1234. -/
theorem test_jmpAbs_J1 :
    shown (step (unit 0x8000 [0x4C, 0x34, 0x12] [])) [] =
      some (regs 0x00 0x00 0x00 0xFD 0x24 0x1234 .running, []) := by decide

/-- J3: JMP $8001 (target = pcd: falls through). -/
theorem test_jmpAbs_J3 :
    shown (step (unit 0x8000 [0x4C, 0x01, 0x80] [])) [] =
      some (regs 0x00 0x00 0x00 0xFD 0x24 0x8003 .running, []) := by decide

/-- J5: JMP ($30FF) (page bug). -/
theorem test_jmpInd_J5 :
    shown (step (unit 0x8000 [0x6C, 0xFF, 0x30] [(0x3000, 0x50), (0x30FF, 0x80), (0x3100, 0x40)])) [] =
      some (regs 0x00 0x00 0x00 0xFD 0x24 0x5080 .running, []) := by decide

/-- J7: JMP ($0200) (target = pcd: falls through). -/
theorem test_jmpInd_J7 :
    shown (step (unit 0x8000 [0x6C, 0x00, 0x02] [(0x0200, 0x01), (0x0201, 0x80)])) [] =
      some (regs 0x00 0x00 0x00 0xFD 0x24 0x8003 .running, []) := by decide

/-- J9: JSR $1234 at S=00 (stack wrap). -/
theorem test_jsr_J9 :
    shown (step { unit 0x8000 [0x20, 0x34, 0x12] [] with sp := 0x00 }) [0x0100, 0x01FF] =
      some (regs 0x00 0x00 0x00 0xFE 0x24 0x1234 .running, [0x80, 0x02]) := by decide

/-- J10: JSR $8001 (target = pcd: falls through, still pushes). -/
theorem test_jsr_J10 :
    shown (step (unit 0x8000 [0x20, 0x01, 0x80] [])) [0x01FC, 0x01FD] =
      some (regs 0x00 0x00 0x00 0xFB 0x24 0x8003 .running, [0x02, 0x80]) := by decide

/-- J13: RTS with popped word FFFF. -/
theorem test_rts_J13 :
    shown (step { unit 0x8000 [0x60] [(0x01FC, 0xFF), (0x01FD, 0xFF)] with sp := 0xFB }) [] =
      some (regs 0x00 0x00 0x00 0xFD 0x24 0x0000 .running, []) := by decide

/-- J14: RTS at S=FE (wrap). -/
theorem test_rts_J14 :
    shown (step { unit 0x8000 [0x60] [(0x0100, 0x20), (0x01FF, 0x10)] with sp := 0xFE }) [] =
      some (regs 0x00 0x00 0x00 0x00 0x24 0x2011 .running, []) := by decide

/-- J15: RTI. -/
theorem test_rti_J15 :
    shown (step { unit 0x8000 [0x40] [(0x01FB, 0xC3), (0x01FC, 0x00), (0x01FD, 0x90)] with sp := 0xFA }) [] =
      some (regs 0x00 0x00 0x00 0xFD 0xE3 0x9000 .running, []) := by decide

/-- J16: RTI with status FF. -/
theorem test_rti_J16 :
    shown (step { unit 0x8000 [0x40] [(0x01FB, 0xFF), (0x01FC, 0x34), (0x01FD, 0x12)] with sp := 0xFA }) [] =
      some (regs 0x00 0x00 0x00 0xFD 0xEF 0x1234 .running, []) := by decide

/-- ST2: PHA at S=00. -/
theorem test_pha_ST2 :
    shown (step { unit 0x8000 [0x48] [] with a := 0x99, sp := 0x00 }) [0x0100] =
      some (regs 0x99 0x00 0x00 0xFF 0x24 0x8001 .running, [0x99]) := by decide

/-- ST3: PLA. -/
theorem test_pla_ST3 :
    shown (step { unit 0x8000 [0x68] [(0x01FD, 0x80)] with sp := 0xFC }) [] =
      some (regs 0x80 0x00 0x00 0xFD 0xA4 0x8001 .running, []) := by decide

/-- ST5: PLA at S=FF (wrap). -/
theorem test_pla_ST5 :
    shown (step { unit 0x8000 [0x68] [(0x0100, 0x42)] with sp := 0xFF }) [] =
      some (regs 0x42 0x00 0x00 0x00 0x24 0x8001 .running, []) := by decide

/-- ST7: PHP with P=E7. -/
theorem test_php_ST7 :
    shown (step { unit 0x8000 [0x08] [] with p := 0xE7 }) [0x01FD] =
      some (regs 0x00 0x00 0x00 0xFC 0xE7 0x8001 .running, [0xF7]) := by decide

/-- ST9: PLP of FF. -/
theorem test_plp_ST9 :
    shown (step { unit 0x8000 [0x28] [(0x01FD, 0xFF)] with sp := 0xFC }) [] =
      some (regs 0x00 0x00 0x00 0xFD 0xEF 0x8001 .running, []) := by decide

/-- ST11: PLP of 34 (what PHP pushed after reset). -/
theorem test_plp_ST11 :
    shown (step { unit 0x8000 [0x28] [(0x01FD, 0x34)] with sp := 0xFC, p := 0xE7 }) [] =
      some (regs 0x00 0x00 0x00 0xFD 0x24 0x8001 .running, []) := by decide

/-- F1: CLC. -/
theorem test_clc_F1 :
    shown (step { unit 0x8000 [0x18] [] with p := 0x25 }) [] =
      some (regs 0x00 0x00 0x00 0xFD 0x24 0x8001 .running, []) := by decide

/-- F2: SEC. -/
theorem test_sec_F2 :
    shown (step (unit 0x8000 [0x38] [])) [] =
      some (regs 0x00 0x00 0x00 0xFD 0x25 0x8001 .running, []) := by decide

/-- F3: CLI. -/
theorem test_cli_F3 :
    shown (step (unit 0x8000 [0x58] [])) [] =
      some (regs 0x00 0x00 0x00 0xFD 0x20 0x8001 .running, []) := by decide

/-- F4: SEI. -/
theorem test_sei_F4 :
    shown (step { unit 0x8000 [0x78] [] with p := 0x20 }) [] =
      some (regs 0x00 0x00 0x00 0xFD 0x24 0x8001 .running, []) := by decide

/-- F5: CLD. -/
theorem test_cld_F5 :
    shown (step { unit 0x8000 [0xD8] [] with p := 0x2C }) [] =
      some (regs 0x00 0x00 0x00 0xFD 0x24 0x8001 .running, []) := by decide

/-- F6: SED. -/
theorem test_sed_F6 :
    shown (step (unit 0x8000 [0xF8] [])) [] =
      some (regs 0x00 0x00 0x00 0xFD 0x2C 0x8001 .running, []) := by decide

/-- F7: CLV. -/
theorem test_clv_F7 :
    shown (step { unit 0x8000 [0xB8] [] with p := 0x64 }) [] =
      some (regs 0x00 0x00 0x00 0xFD 0x24 0x8001 .running, []) := by decide

/-- F9: NOP. -/
theorem test_nop_F9 :
    shown (step { unit 0x8000 [0xEA] [] with a := 0x12, x := 0x34, y := 0x56, p := 0xE7 }) [] =
      some (regs 0x12 0x34 0x56 0xFD 0xE7 0x8001 .running, []) := by decide

/-- F10: BRK. -/
theorem test_brk_F10 :
    shown (step { unit 0x8002 [0x00] [] with a := 0x12, p := 0x27 }) [] =
      some (regs 0x12 0x00 0x00 0xFD 0x27 0x8003 .idle, []) := by decide

/-- F11: BRK at FFFF. -/
theorem test_brk_F11 :
    shown (step (unit 0xFFFF [0x00] [])) [] =
      some (regs 0x00 0x00 0x00 0xFD 0x24 0x0000 .idle, []) := by decide

/-- E2: (unassigned FF). -/
theorem test_unassigned_E2 :
    shown (step (unit 0x1234 [0xFF, 0x00, 0x00] [])) [] =
      some (regs 0x00 0x00 0x00 0xFD 0x24 0x1235 .faulted, []) := by decide

/-- E6: (unassigned 9C at FFFF). -/
theorem test_unassigned_E6 :
    shown (step (unit 0xFFFF [0x9C] [])) [] =
      some (regs 0x00 0x00 0x00 0xFD 0x24 0x0000 .faulted, []) := by decide

/-- The error latch after vector E2, and no step from there (R223, R230). -/
theorem test_fault_latches :
    (match step (unit 0x1234 [0xFF] []) with
      | .next t => some (t.status, step t)
      | _ => none) =
      some (⟨.faulted, 1, 0xFF⟩, .fault (.runAborted (some (.unrecognizedOpcode 0xFF)))) :=
  rfl

/-- The very next step from a state prepared with `withFetchWord` runs the word's instruction. -/
theorem test_withFetchWord_runs :
    shown (step (State.reset.withFetchWord 16 0x80A9)) [0x0000, 0x0001] =
      some (regs 0x80 0x00 0x00 0xFD 0xA4 0x0002 .running, [0xA9, 0x80]) := by
  decide

/-- H2: after `load` and `reset` PC is 0x8000. -/
theorem test_host_H2 :
    (match hostCommand (.load [0xA9, 0x05, 0x00]) State.created with
      | .next t => shown (hostCommand .reset t) [0x8000, 0x8001, 0x8002, 0xFFFC, 0xFFFD]
      | _ => none) =
      some (regs 0x00 0x00 0x00 0xFD 0x24 0x8000 .idle, [0xA9, 0x05, 0x00, 0x00, 0x80]) := by
  decide

/-! ### Witnesses: the hypotheses of the statements can be met -/

/-- O1, O3, O5, O6: states in which a command is accepted, and one in which it is not. -/
theorem test_witness_host_states :
    State.reset.runState ≠ .running ∧ (unit 0x8000 [] []).runState = .running ∧
    (raiseFatal (.unrecognizedOpcode 0x02) State.reset).runState = .faulted := by
  decide

/-- LoadPlacesProgramAndVector: the longest program accepted and the shortest refused; a byte index at
each end, the two cells of the vector aside; a cell on each side of a program. -/
theorem test_witness_load_lengths :
    (List.replicate 0x8000 (0x01 : Byte)).length ≤ 0x8000 ∧
    0x8000 < (List.replicate 0x8001 (0x01 : Byte)).length ∧
    (0x7FFF < (List.replicate 0x8000 (0x01 : Byte)).length ∧ 0x7FFF ≠ 0x7FFC ∧ 0x7FFF ≠ 0x7FFD) ∧
    ((0x7FFF : Word).toNat < 0x8000 ∧ (0x7FFF : Word) ≠ 0xFFFC ∧ (0x7FFF : Word) ≠ 0xFFFD) ∧
    (0x8000 + [(0x01 : Byte)].length ≤ (0x8001 : Word).toNat ∧ (0x8001 : Word) ≠ 0xFFFC) := by
  refine ⟨by rw [List.length_replicate], by rw [List.length_replicate]; decide, ⟨by rw [List.length_replicate]; decide, by decide, by decide⟩, by decide, by decide⟩

/-- RunStartsOrIsRefused: one state for each clause. -/
theorem test_witness_run_clauses :
    (State.reset.runState = .idle ∧ State.reset.wasReset = true) ∧
    (raiseFatal (.unrecognizedOpcode 0x02) State.reset).runState = .faulted ∧
    (State.created.runState = .idle ∧ State.created.wasReset = false) := by
  decide

/-- PeekPokeAndLoadAndRun: a load that is accepted, and one that is refused. -/
theorem test_witness_load_accepted : ∃ t, hostCommand (.load [0xE8, 0x00]) State.reset = .next t :=
  ⟨_, rfl⟩

theorem test_witness_load_refused :
    hostCommand (.load (List.replicate 0x8001 0x00)) State.reset = .refused (.programTooLong 0x8001) := by
  show hostLoad _ State.reset = _
  rw [hostLoad, List.length_replicate]
  rfl

/-- The invariant, in a RUNNING state, in an IDLE one and in a FAULTED one. -/
theorem test_witness_running_inv : UnitInv (unit 0x8000 [0xE8] [(0x0010, 0x55)]) :=
  ⟨by decide, by decide, by decide, by decide⟩

theorem test_witness_idle_inv : UnitInv { unit 0x8000 [0xE8] [] with runState := .idle } :=
  ⟨by decide, by decide, by decide, by decide⟩

theorem test_witness_faulted_inv :
    UnitInv (raiseFatal (.unrecognizedOpcode 0x02) (unit 0x8000 [0x02] [])) :=
  ⟨by decide, by decide, by decide, by decide⟩

/-- StepKeepsInvariant: a step from the RUNNING state above; HostCommandsKeepInvariant: a command
accepted in the IDLE one. -/
theorem test_witness_step_and_command :
    (∃ t, step (unit 0x8000 [0xE8] [(0x0010, 0x55)]) = .next t) ∧
    (∃ t, hostCommand (.memWrite 0x0000 0x01) { unit 0x8000 [0xE8] [] with runState := .idle } = .next t) :=
  ⟨⟨_, rfl⟩, ⟨_, rfl⟩⟩

/-- ReachableStatesMeetInvariant: a unit that ran its first instruction. -/
theorem test_witness_reachable : ∃ s, Reachable s ∧ s.runState = .idle ∧ s.wasReset = true :=
  ⟨_, .command .reset .created rfl, rfl, rfl⟩

/-- DecodeOfEncodeIsIdentity: each length, with bytes after the instruction. -/
theorem test_witness_round_trip :
    InstrBytes.wellFormed ⟨.rti, []⟩ = true ∧ InstrBytes.wellFormed ⟨.bne, [0xFF]⟩ = true ∧
    InstrBytes.wellFormed ⟨.jmpInd, [0xFF, 0xFF]⟩ = true := by
  decide

/-- EncodeOfDecodeIsIdentity, StepRunsDecodedInstruction: bytes that decode, at a RUNNING unit's PC. -/
theorem test_witness_decoded_at_pc :
    (unit 0x8000 [0xA9, 0x05] []).runState = .running ∧
    decode (bytesAtPc (unit 0x8000 [0xA9, 0x05] [])) = .ok (⟨.ldaImm, [0x05]⟩, [0x00]) := by
  decide

/-- UnassignedOpcodeAbortsRun and RunEndsOnlyAtBrkOrUnassignedByte: a RUNNING unit at an unassigned
byte, at BRK, and at another instruction. -/
theorem test_witness_opcode_kinds :
    (unit 0xFFFF [0xFF] []).mem.read (unit 0xFFFF [0xFF] []).pc = 0xFF ∧ lookup 0xFF = none ∧
    lookup ((unit 0x8000 [] []).mem.read 0x8000) = some .brk ∧
    lookup ((unit 0x8000 [0xEA] []).mem.read 0x8000) = some .nop := by
  decide

/-- OrdinaryStepAdvancesPcByLength: an instruction that is no branch, jump, call or return. -/
theorem test_witness_ordinary_step :
    lookup ((unit 0xFFFE [0xAD] []).mem.read 0xFFFE) = some .ldaAbs ∧
    Instr.ldaAbs ∉ ([.bcc, .bcs, .bne, .beq, .bpl, .bmi, .bvc, .bvs, .jmpAbs, .jmpInd, .jsr, .rts, .rti] :
      List Instr) := by
  decide

/-- TargetEqualToPcdFallsThrough, the branches: each with its flag at its value and the offset 0xFF. -/
theorem test_witness_branch_to_pcd :
    ∀ b ∈ ([(0x90, 0, false, 0x24), (0xB0, 0, true, 0x25), (0xD0, 1, false, 0x24), (0xF0, 1, true, 0x26),
        (0x10, 7, false, 0x24), (0x30, 7, true, 0xA4), (0x50, 6, false, 0x24), (0x70, 6, true, 0x64)] :
        List (Byte × Nat × Bool × Byte)),
      let s := { unit 0x8000 [b.1, 0xFF] [] with p := b.2.2.2 }
      s.mem.read s.pc = b.1 ∧ s.p.getLsbD b.2.1 = b.2.2.1 ∧ s.mem.read (s.pc + 1#16) = 0xFF := by
  decide

/-- TargetEqualToPcdFallsThrough, JMP and JSR: the operand word is pcd; JSR's stack cells are not its
operand bytes. -/
theorem test_witness_jump_to_pcd :
    ∀ op ∈ ([0x4C, 0x20] : List Byte),
      hiLo ((unit 0x8000 [op, 0x01, 0x80] []).mem.read (0x8000 + 2#16))
        ((unit 0x8000 [op, 0x01, 0x80] []).mem.read (0x8000 + 1#16)) = 0x8000 + 1#16 := by
  decide

theorem test_witness_call_to_pcd :
    ∀ c ∈ [stackCell 0xFD, stackCell (0xFD - 1#8)], c ≠ 0x8000 + 1#16 ∧ c ≠ 0x8000 + 2#16 := by
  simp [stackCell]

/-- TargetEqualToPcdFallsThrough, JMP indirect: a pointer away from the end of its page. -/
theorem test_witness_indirect_to_pcd :
    let s := unit 0x8000 [0x6C, 0xFE, 0x02] [(0x02FE, 0x01), (0x02FF, 0x80)]
    hiLo (s.mem.read (s.pc + 2#16)) (s.mem.read (s.pc + 1#16)) = 0x02FE ∧
    (0x02FE : Word).toNat % 256 ≠ 0xFF ∧
    hiLo (s.mem.read (0x02FE + 1#16)) (s.mem.read 0x02FE) = s.pc + 1#16 := by
  decide

/-- Every statement made of `Performs`: a RUNNING state with any opcode byte whatever at PC. -/
theorem test_witness_performs :
    ∀ b : Byte, let s := unit 0x8000 [b] []
      s.runState = .running ∧ s.mem.read s.pc = b := by
  decide

/-- NoneAddressingIsFatalToResolve; AddOverflowIsSignedRange and SubtractIsBorrowWithSignedOverflow: an
effective address in each of the eight modes of ADC and SBC. -/
theorem test_witness_addresses :
    ∀ m ∈ ([.immediate, .zeroPage, .zeroPageX, .absolute, .absoluteX, .absoluteY, .indirectX, .indirectY] :
      List AddrMode), m ≠ .noneAddressing ∧ (resolve m (unit 0x8000 [0x69, 0xFF] [])).isSome = true := by
  decide

/-- AddOverflowIsSignedRange: a sum at each edge of the signed range, and one past it (AR6, AR10,
AR11). -/
theorem test_witness_signed_edges :
    addOverflow 0x7F 0x00 false = false ∧ addOverflow 0x7F 0x00 true = true ∧
    addOverflow 0x80 0xFF true = false ∧ addOverflow 0x80 0xFF false = true := by
  decide

/-- PulledByteIsPushedByte: P as after a reset. -/
theorem test_witness_status_bits :
    State.reset.p.getLsbD 4 = false ∧ State.reset.p.getLsbD 5 = true := by
  decide

/-- ReturnGoesBehindTheCall: a JSR across the wrap of S, and the state it leaves. -/
theorem test_witness_call_and_return :
    ∃ t, exec .jsr (inDispatch { unit 0x8000 [0x20, 0x34, 0x12] [] with sp := 0x00 }) = .next t ∧
      t.sp = 0xFE ∧ t.mem.read (stackCell 0x00) = 0x80 ∧ t.mem.read (stackCell 0xFF) = 0x02 :=
  ⟨_, rfl, by decide, by decide, by decide⟩

/-- DecimalAndInterruptFlagsHaveNoEffect: P 0x24 and 0x28 differ in I and D alone. -/
theorem test_witness_decimal_pair :
    Instr.adcImm ≠ .php ∧ ∀ k, k < 8 → k ≠ 2 → k ≠ 3 →
      (0x28 : Byte).getLsbD k = (0x24 : Byte).getLsbD k := by
  decide

/-- FlagsChangeOnlyByListedInstructions and RegistersAndMemoryChangeOnlyByListedInstructions: NOP is in
no list. -/
theorem test_witness_unlisted_mnemonic :
    Instr.nop.entry.mnemonic = .nop ∧ Mnemonic.nop ∉ ([.plp, .rti] : List Mnemonic) ∧
    Mnemonic.nop ∉ ([.sta, .stx, .sty, .asl, .lsr, .rol, .ror, .inc, .dec, .pha, .php, .jsr] : List Mnemonic) := by
  decide

/-- CanonicalMemoriesThatReadAlikeAreEqual: memories in the canonical form, and lists that are not. -/
theorem test_witness_canonical :
    Memory.wf [(0x0010, 0x55), (0xFFFF, 0x01)] = true ∧ Memory.wf [(0x0010, 0x00)] = false ∧
    Memory.wf [(0x0011, 0x01), (0x0010, 0x01)] = false ∧ Memory.wf [(0x10000, 0x01)] = false := by
  decide

/-- PushesStayInStackPage: cells just outside the stack page. -/
theorem test_witness_outside_stack_page :
    (0x00FF : Word).toNat < 0x0100 ∧ 0x01FF < (0x0200 : Word).toNat := by
  decide

end Sys2Proof.Tests
end

section
/-!
PROOF. What one instruction can do, said once. `Effect` is an instruction's effect with its operands evaluated:
the bytes, addresses and targets that memory and the registers give it stand in the constructor, so `Effect.apply`
resolves no address. `exec_effect` is the inversion lemma of `exec`: every instruction answers `next` with an
effect of its mnemonic, and with the SAME effect in a state that differs in the I and D bits of P alone.
-/

namespace Sys2Proof.Machine

/-! ### Status bytes that differ in I and D at most -/

/-- `q` has the bits of `p`, but for Interrupt-Disable (bit 2) and Decimal (bit 3). -/
def AlikeButID (p q : Byte) : Prop := ∀ k, k < 8 → k ≠ 2 → k ≠ 3 → q.getLsbD k = p.getLsbD k

theorem AlikeButID.refl (p : Byte) : AlikeButID p p := fun _ _ _ _ => rfl

theorem Flag.bit_lt (f : Flag) : f.bit < 8 := by cases f <;> decide

section
variable {p q : Byte} (h : AlikeButID p q)
include h

/-- The six other flags are the same in both. -/
theorem AlikeButID.getFlag_eq {f : Flag} (hi : f ≠ .interruptDisable) (hd : f ≠ .decimal) :
    getFlag q f = getFlag p f :=
  h f.bit f.bit_lt (by cases f <;> simp_all [Flag.bit]) (by cases f <;> simp_all [Flag.bit])

theorem AlikeButID.setFlag (f : Flag) (b : Bool) : AlikeButID (setFlag p f b) (setFlag q f b) := by
  intro k hk hi hd
  rw [getLsbD_setFlag _ _ _ _ hk, getLsbD_setFlag _ _ _ _ hk, h k hk hi hd]

theorem AlikeButID.setZN (r : Byte) : AlikeButID (setZN p r) (setZN q r) :=
  (h.setFlag _ _).setFlag _ _

theorem AlikeButID.addFlags (a m : Byte) (c : Bool) :
    AlikeButID (addFlags p a m c) (addFlags q a m c) :=
  ((h.setFlag _ _).setFlag _ _).setZN _

theorem AlikeButID.compareFlags (reg m : Byte) :
    AlikeButID (compareFlags p reg m) (compareFlags q reg m) :=
  (h.setFlag _ _).setZN _

theorem AlikeButID.bitTestFlags (a m : Byte) : AlikeButID (bitTestFlags p a m) (bitTestFlags q a m) :=
  ((h.setFlag _ _).setFlag _ _).setFlag _ _

theorem AlikeButID.shiftFlags (out : Byte × Bool) : AlikeButID (shiftFlags p out) (shiftFlags q out) :=
  (h.setFlag _ _).setZN _

end

/-! ### Effects -/

/-- What one instruction does, its operands evaluated. -/
inductive Effect where
  | loadA (v : Byte)
  | loadX (v : Byte)
  | loadY (v : Byte)
  | setSp (v : Byte)
  | store (a : Word) (v : Byte)
  | add (m : Byte)
  | shiftA (out : Byte × Bool)
  | shiftMem (a : Word) (out : Byte × Bool)
  | count (a : Word) (v : Byte)
  | compare (reg m : Byte)
  | bitTest (m : Byte)
  | jump (target : Word)
  | call
  | returnCall
  | returnInterrupt
  | pushByte (v : Byte)
  | pushStatus
  | pullA
  | pullStatus
  | writeFlag (f : Flag) (b : Bool)
  | nothing
  | halt

/-- The effect performed on a state, by the model's own operations. -/
def Effect.apply : Effect → State → State
  | .loadA v, s => Machine.loadA v s
  | .loadX v, s => Machine.loadX v s
  | .loadY v, s => Machine.loadY v s
  | .setSp v, s => s.setSp v
  | .store a v, s => s.write a v
  | .add m, s => addWithCarry m s
  | .shiftA out, s => (s.setA out.1).setP (shiftFlags s.p out)
  | .shiftMem a out, s => (s.write a out.1).setP (shiftFlags s.p out)
  | .count a v, s => (s.write a v).setP (setZN s.p v)
  | .compare reg m, s => s.setP (compareFlags s.p reg m)
  | .bitTest m, s => s.setP (bitTestFlags s.p s.a m)
  | .jump target, s => s.setPc target
  | .call, s => jumpToSubroutine s
  | .returnCall, s => returnFromSubroutine s
  | .returnInterrupt, s => returnFromInterrupt s
  | .pushByte v, s => push v s
  | .pushStatus, s => push (statusToStack s.p) s
  | .pullA, s => Machine.loadA (popByte s) (popped s)
  | .pullStatus, s => (popped s).setP (statusFromStack (popByte s))
  | .writeFlag f b, s => s.setP (setFlag s.p f b)
  | .nothing, s => s
  | .halt, s => haltRun s

/-- The mnemonics of the instructions that have an effect of this kind. -/
def Effect.mnemonics : Effect → List Mnemonic
  | .loadA _ => [.lda, .txa, .tya, .and, .eor, .ora]
  | .loadX _ => [.ldx, .tax, .tsx, .inx, .dex]
  | .loadY _ => [.ldy, .tay, .iny, .dey]
  | .setSp _ => [.txs]
  | .store _ _ => [.sta, .stx, .sty]
  | .add _ => [.adc, .sbc]
  | .shiftA _ | .shiftMem _ _ => [.asl, .lsr, .rol, .ror]
  | .count _ _ => [.inc, .dec]
  | .compare _ _ => [.cmp, .cpx, .cpy]
  | .bitTest _ => [.bit]
  | .jump _ => [.bcc, .bcs, .bne, .beq, .bpl, .bmi, .bvc, .bvs, .jmp]
  | .call => [.jsr]
  | .returnCall => [.rts]
  | .returnInterrupt => [.rti]
  | .pushByte _ => [.pha]
  | .pushStatus => [.php]
  | .pullA => [.pla]
  | .pullStatus => [.plp]
  | .writeFlag .carry _ => [.clc, .sec]
  | .writeFlag .interruptDisable _ => [.cli, .sei]
  | .writeFlag .decimal _ => [.cld, .sed]
  | .writeFlag .overflow _ => [.clv]
  | .writeFlag _ _ => []
  | .nothing => [.nop]
  | .halt => [.brk]

/-! ### Every instruction has an effect -/

/-- `r` and `r'` are what one and the same effect of the instruction's mnemonic leaves of `s`, and of `s`
with the status byte `q`. -/
def ActsAs (i : Instr) (s : State) (q : Byte) (r r' : Result) : Prop :=
  ∃ e : Effect, i.entry.mnemonic ∈ e.mnemonics ∧ r = .next (e.apply s) ∧ r' = .next (e.apply (s.setP q))

section
variable {i : Instr} {s : State} {q : Byte}

theorem actsAs_next (e : Effect) (hm : e.mnemonics.contains i.entry.mnemonic = true) :
    ActsAs i s q (.next (e.apply s)) (.next (e.apply (s.setP q))) :=
  ⟨e, List.contains_iff_mem.mp hm, rfl, rfl⟩

/-- The effective address does not depend on P, so an instruction with a resolver mode has one effect. -/
theorem actsAs_address (hmode : i.mode ≠ .noneAddressing) (e : Word → Effect)
    (hm : ∀ ea, (e ea).mnemonics.contains i.entry.mnemonic = true) :
    ActsAs i s q (withAddress i.mode s fun ea => (e ea).apply s)
      (withAddress i.mode (s.setP q) fun ea => (e ea).apply (s.setP q)) := by
  obtain ⟨ea, hea⟩ := resolve_isSome hmode s
  have hea' : resolve i.mode (s.setP q) = some ea := (resolve_congr rfl rfl rfl rfl i.mode).trans hea
  exact ⟨e ea, List.contains_iff_mem.mp (hm ea), by rw [withAddress, hea], by rw [withAddress, hea']⟩

theorem actsAs_operand (hmode : i.mode ≠ .noneAddressing) (e : Byte → Effect)
    (hm : ∀ v, (e v).mnemonics.contains i.entry.mnemonic = true) :
    ActsAs i s q (withOperand i.mode s fun v => (e v).apply s)
      (withOperand i.mode (s.setP q) fun v => (e v).apply (s.setP q)) :=
  actsAs_address hmode (fun ea => e (s.read ea)) fun _ => hm _

/-- A branch is a jump, to PC itself where it is not taken (R170). -/
theorem branch_eq_setPc (c : Bool) (t : State) :
    branch c t = .next (t.setPc (if c then t.pc + 1#16 + sext16 (operandByte t) else t.pc)) := by
  cases c <;> rfl

theorem actsAs_branch {c c' : Bool} (hc : c' = c)
    (hm : ∀ target, (Effect.jump target).mnemonics.contains i.entry.mnemonic = true) :
    ActsAs i s q (branch c s) (branch c' (s.setP q)) := by
  rw [hc, branch_eq_setPc, branch_eq_setPc]
  exact actsAs_next (.jump _) (hm _)

section
variable (h : AlikeButID s.p q)
include h

theorem flag_setP_of_alike {f : Flag} (hi : f ≠ .interruptDisable) (hd : f ≠ .decimal) :
    (s.setP q).flag f = s.flag f :=
  h.getFlag_eq hi hd

theorem carry_setP_of_alike : (s.setP q).flag .carry = s.flag .carry :=
  flag_setP_of_alike h (by decide) (by decide)

theorem actsAs_shiftA (f : Byte → Bool → Byte × Bool)
    (hm : ∀ out, (Effect.shiftA out).mnemonics.contains i.entry.mnemonic = true) :
    ActsAs i s q (shiftA f s) (shiftA f (s.setP q)) := by
  unfold shiftA
  rw [carry_setP_of_alike h]
  exact actsAs_next (.shiftA _) (hm _)

theorem actsAs_shiftMem (hmode : i.mode ≠ .noneAddressing)
    (f : Byte → Bool → Byte × Bool)
    (hm : ∀ a out, (Effect.shiftMem a out).mnemonics.contains i.entry.mnemonic = true) :
    ActsAs i s q (shiftMem f i.mode s) (shiftMem f i.mode (s.setP q)) := by
  unfold shiftMem
  rw [carry_setP_of_alike h]
  exact actsAs_address hmode (fun ea => .shiftMem ea (f (s.read ea) (s.flag .carry))) fun _ => hm _ _

end

theorem actsAs_countMem (hmode : i.mode ≠ .noneAddressing) (f : Byte → Byte)
    (hm : ∀ a v, (Effect.count a v).mnemonics.contains i.entry.mnemonic = true) :
    ActsAs i s q (countMem f i.mode s) (countMem f i.mode (s.setP q)) :=
  actsAs_address hmode (fun ea => .count ea (f (s.read ea))) fun _ => hm _ _

theorem actsAs_storeOperand (hmode : i.mode ≠ .noneAddressing) (v : Byte)
    (hm : ∀ a, (Effect.store a v).mnemonics.contains i.entry.mnemonic = true) :
    ActsAs i s q (storeOperand i.mode v s) (storeOperand i.mode v (s.setP q)) :=
  actsAs_address hmode (fun ea => .store ea v) hm

end

/-- Every instruction answers `next` in every state, with an effect of its mnemonic; what I and D hold
plays no part in which effect it is. -/
theorem exec_actsAs (i : Instr) (s : State) {q : Byte} (h : AlikeButID s.p q) :
    ActsAs i s q (exec i s) (exec i (s.setP q)) := by
  cases i
  case ldaImm | ldaZp | ldaZpX | ldaAbs | ldaAbsX | ldaAbsY | ldaIndX | ldaIndY =>
    exact actsAs_operand (by decide) .loadA fun _ => rfl
  case ldxImm | ldxZp | ldxZpY | ldxAbs | ldxAbsY =>
    exact actsAs_operand (by decide) .loadX fun _ => rfl
  case ldyImm | ldyZp | ldyZpX | ldyAbs | ldyAbsX =>
    exact actsAs_operand (by decide) .loadY fun _ => rfl
  case tax => exact actsAs_next (.loadX s.a) rfl
  case tay => exact actsAs_next (.loadY s.a) rfl
  case txa => exact actsAs_next (.loadA s.x) rfl
  case tsx => exact actsAs_next (.loadX s.sp) rfl
  case txs => exact actsAs_next (.setSp s.x) rfl
  case tya => exact actsAs_next (.loadA s.y) rfl
  case staZp | staZpX | staAbs | staAbsX | staAbsY | staIndX | staIndY =>
    exact actsAs_storeOperand (by decide) s.a fun _ => rfl
  case stxZp | stxZpY | stxAbs => exact actsAs_storeOperand (by decide) s.x fun _ => rfl
  case styZp | styZpX | styAbs => exact actsAs_storeOperand (by decide) s.y fun _ => rfl
  case adcImm | adcZp | adcZpX | adcAbs | adcAbsX | adcAbsY | adcIndX | adcIndY =>
    exact actsAs_operand (by decide) .add fun _ => rfl
  case sbcImm | sbcZp | sbcZpX | sbcAbs | sbcAbsX | sbcAbsY | sbcIndX | sbcIndY =>
    exact actsAs_operand (by decide) (fun v => .add (subtrahend v)) fun _ => rfl
  case andImm | andZp | andZpX | andAbs | andAbsX | andAbsY | andIndX | andIndY =>
    exact actsAs_operand (by decide) (fun v => .loadA (s.a &&& v)) fun _ => rfl
  case eorImm | eorZp | eorZpX | eorAbs | eorAbsX | eorAbsY | eorIndX | eorIndY =>
    exact actsAs_operand (by decide) (fun v => .loadA (s.a ^^^ v)) fun _ => rfl
  case oraImm | oraZp | oraZpX | oraAbs | oraAbsX | oraAbsY | oraIndX | oraIndY =>
    exact actsAs_operand (by decide) (fun v => .loadA (s.a ||| v)) fun _ => rfl
  case aslAcc => exact actsAs_shiftA h shiftAsl fun _ => rfl
  case lsrAcc => exact actsAs_shiftA h shiftLsr fun _ => rfl
  case rolAcc => exact actsAs_shiftA h shiftRol fun _ => rfl
  case rorAcc => exact actsAs_shiftA h shiftRor fun _ => rfl
  case aslZp | aslZpX | aslAbs | aslAbsX =>
    exact actsAs_shiftMem h (by decide) shiftAsl fun _ _ => rfl
  case lsrZp | lsrZpX | lsrAbs | lsrAbsX =>
    exact actsAs_shiftMem h (by decide) shiftLsr fun _ _ => rfl
  case rolZp | rolZpX | rolAbs | rolAbsX =>
    exact actsAs_shiftMem h (by decide) shiftRol fun _ _ => rfl
  case rorZp | rorZpX | rorAbs | rorAbsX =>
    exact actsAs_shiftMem h (by decide) shiftRor fun _ _ => rfl
  case inx => exact actsAs_next (.loadX (s.x + 1#8)) rfl
  case iny => exact actsAs_next (.loadY (s.y + 1#8)) rfl
  case dex => exact actsAs_next (.loadX (s.x - 1#8)) rfl
  case dey => exact actsAs_next (.loadY (s.y - 1#8)) rfl
  case incZp | incZpX | incAbs | incAbsX =>
    exact actsAs_countMem (by decide) (fun v => v + 1#8) fun _ _ => rfl
  case decZp | decZpX | decAbs | decAbsX =>
    exact actsAs_countMem (by decide) (fun v => v - 1#8) fun _ _ => rfl
  case cmpImm | cmpZp | cmpZpX | cmpAbs | cmpAbsX | cmpAbsY | cmpIndX | cmpIndY =>
    exact actsAs_operand (by decide) (.compare s.a) fun _ => rfl
  case cpxImm | cpxZp | cpxAbs => exact actsAs_operand (by decide) (.compare s.x) fun _ => rfl
  case cpyImm | cpyZp | cpyAbs => exact actsAs_operand (by decide) (.compare s.y) fun _ => rfl
  case bitZp | bitAbs => exact actsAs_operand (by decide) .bitTest fun _ => rfl
  case bcs | beq | bmi | bvs =>
    exact actsAs_branch (flag_setP_of_alike h (by decide) (by decide)) fun _ => rfl
  case bcc | bne | bpl | bvc =>
    exact actsAs_branch (congrArg not (flag_setP_of_alike h (by decide) (by decide))) fun _ => rfl
  case jmpAbs => exact actsAs_next (.jump (operandWord s)) rfl
  case jmpInd => exact actsAs_next (.jump (indirectTarget (operandWord s) s)) rfl
  case jsr => exact actsAs_next .call rfl
  case rts => exact actsAs_next .returnCall rfl
  case rti => exact actsAs_next .returnInterrupt rfl
  case pha => exact actsAs_next (.pushByte s.a) rfl
  case pla => exact actsAs_next .pullA rfl
  case php => exact actsAs_next .pushStatus rfl
  case plp => exact actsAs_next .pullStatus rfl
  case clc => exact actsAs_next (.writeFlag .carry false) rfl
  case sec => exact actsAs_next (.writeFlag .carry true) rfl
  case cli => exact actsAs_next (.writeFlag .interruptDisable false) rfl
  case sei => exact actsAs_next (.writeFlag .interruptDisable true) rfl
  case cld => exact actsAs_next (.writeFlag .decimal false) rfl
  case sed => exact actsAs_next (.writeFlag .decimal true) rfl
  case clv => exact actsAs_next (.writeFlag .overflow false) rfl
  case nop => exact actsAs_next .nothing rfl
  case brk => exact actsAs_next .halt rfl

/-- The inversion lemma of `exec`: every instruction answers what an effect of its mnemonic leaves. -/
theorem exec_effect (i : Instr) (s : State) :
    ∃ e : Effect, i.entry.mnemonic ∈ e.mnemonics ∧ exec i s = .next (e.apply s) := by
  obtain ⟨e, hm, he, -⟩ := exec_actsAs i s (.refl s.p)
  exact ⟨e, hm, he⟩

end Sys2Proof.Machine
end

section
/-!
PROOF. What an effect writes and what it leaves: the flags it may change, the registers, memory; and that an effect
keeps `UnitInv` in a run and, but for PHP's, lets no difference in I and D out of P.
-/

namespace Sys2Proof.Machine

/-! ### The flags an effect may change -/

theorem getFlag_setZN {f : Flag} (p r : Byte) (hz : f ≠ .zero) (hn : f ≠ .negative) :
    getFlag (setZN p r) f = getFlag p f := by
  simp [setZN, hz, hn]

/-- The flags an effect may change. -/
def Effect.flags : Effect → List Flag
  | .loadA _ | .loadX _ | .loadY _ | .count _ _ | .pullA => [.zero, .negative]
  | .add _ => [.carry, .zero, .overflow, .negative]
  | .shiftA _ | .shiftMem _ _ | .compare _ _ => [.carry, .zero, .negative]
  | .bitTest _ => [.zero, .overflow, .negative]
  | .returnInterrupt | .pullStatus =>
    [.carry, .zero, .interruptDisable, .decimal, .brk, .break2, .overflow, .negative]
  | .writeFlag f _ => [f]
  | .setSp _ | .store _ _ | .jump _ | .call | .returnCall | .pushByte _ | .pushStatus | .nothing
  | .halt => []

/-- An effect keeps every flag it is not listed to change. -/
theorem Effect.apply_flag (e : Effect) (s : State) {f : Flag} (hf : f ∉ e.flags) :
    getFlag (e.apply s).p f = getFlag s.p f := by
  cases e
  case loadA | loadX | loadY | count | pullA =>
    obtain ⟨hz, hn⟩ : f ≠ .zero ∧ f ≠ .negative := by simpa [Effect.flags] using hf
    exact getFlag_setZN _ _ hz hn
  case add | shiftA | shiftMem | compare | bitTest | writeFlag =>
    simp only [Effect.flags, List.mem_cons, List.not_mem_nil, or_false, not_or] at hf
    simp [Effect.apply, addWithCarry, addFlags, shiftFlags, compareFlags, bitTestFlags, setZN, hf]
  case returnInterrupt | pullStatus => cases f <;> simp [Effect.flags] at hf
  all_goals rfl

/-- The spec's list of the writers of each flag (10_state.md R33 to R40), by mnemonic. -/
def flagWriters : Flag → List Mnemonic
  | .carry => [.adc, .sbc, .asl, .lsr, .rol, .ror, .cmp, .cpx, .cpy, .clc, .sec, .plp, .rti]
  | .interruptDisable => [.sei, .cli, .plp, .rti]
  | .decimal => [.sed, .cld, .plp, .rti]
  | .brk | .break2 => [.plp, .rti]
  | .overflow => [.adc, .sbc, .bit, .clv, .plp, .rti]
  | .zero | .negative =>
    [.lda, .ldx, .ldy, .tax, .tay, .txa, .tya, .tsx, .pla, .adc, .sbc, .and, .eor, .ora,
      .asl, .lsr, .rol, .ror, .inx, .iny, .dex, .dey, .inc, .dec, .cmp, .cpx, .cpy, .bit, .plp, .rti]

/-- An effect that may change a flag belongs to writers of that flag only. -/
theorem Effect.mnemonics_subset_flagWriters (e : Effect) :
    ∀ f ∈ e.flags, e.mnemonics ⊆ flagWriters f := by
  cases e
  case writeFlag f _ => cases f <;> simp [Effect.flags, Effect.mnemonics, flagWriters]
  all_goals simp [Effect.flags, Effect.mnemonics, flagWriters]

/-- The frame of P: an instruction that is no writer of a flag keeps its bit. -/
theorem Effect.apply_flag_of_not_writer {e : Effect} (s : State) {m : Mnemonic} (hm : m ∈ e.mnemonics)
    (f : Flag) (hn : m ∉ flagWriters f) : (e.apply s).p.getLsbD f.bit = s.p.getLsbD f.bit :=
  e.apply_flag s fun hf => hn (e.mnemonics_subset_flagWriters f hf hm)

/-! ### Registers and memory -/

section
variable (e : Effect) (s : State)

theorem Effect.apply_a : (e.apply s).a = s.a ∨
    e.mnemonics ⊆ [.lda, .txa, .tya, .pla, .adc, .sbc, .and, .eor, .ora, .asl, .lsr, .rol, .ror] := by
  cases e
  case loadA | add | shiftA | pullA => exact .inr (by simp [Effect.mnemonics])
  all_goals exact .inl rfl

theorem Effect.apply_x : (e.apply s).x = s.x ∨ e.mnemonics ⊆ [.ldx, .tax, .tsx, .inx, .dex] := by
  cases e
  case loadX => exact .inr (by simp [Effect.mnemonics])
  all_goals exact .inl rfl

theorem Effect.apply_y : (e.apply s).y = s.y ∨ e.mnemonics ⊆ [.ldy, .tay, .iny, .dey] := by
  cases e
  case loadY => exact .inr (by simp [Effect.mnemonics])
  all_goals exact .inl rfl

theorem Effect.apply_sp : (e.apply s).sp = s.sp ∨
    e.mnemonics ⊆ [.txs, .pha, .php, .jsr, .pla, .plp, .rts, .rti] := by
  cases e
  case setSp | call | returnCall | returnInterrupt | pushByte | pushStatus | pullA | pullStatus =>
    exact .inr (by simp [Effect.mnemonics])
  all_goals exact .inl rfl

theorem Effect.apply_pc : (e.apply s).pc = s.pc ∨
    e.mnemonics ⊆ [.bcc, .bcs, .bne, .beq, .bpl, .bmi, .bvc, .bvs, .jmp, .jsr, .rts, .rti] := by
  cases e
  case jump | call | returnCall | returnInterrupt => exact .inr (by simp [Effect.mnemonics])
  all_goals exact .inl rfl

theorem Effect.apply_mem : (e.apply s).mem = s.mem ∨
    e.mnemonics ⊆ [.sta, .stx, .sty, .asl, .lsr, .rol, .ror, .inc, .dec, .pha, .php, .jsr] := by
  cases e
  case store | shiftMem | count | call | pushByte | pushStatus =>
    exact .inr (by simp [Effect.mnemonics])
  all_goals exact .inl rfl

/-! ### The invariant -/

theorem Effect.apply_wasReset : (e.apply s).wasReset = s.wasReset := by cases e <;> rfl

theorem Effect.apply_error : (e.apply s).error = s.error := by cases e <;> rfl

/-- BRK alone ends a run, and it ends it IDLE. -/
theorem Effect.apply_runState : (e.apply s).runState = s.runState ∨ (e.apply s).runState = .idle := by
  cases e
  case halt => exact .inr rfl
  all_goals exact .inl rfl

end

/-- Every write to memory keeps its canonical form. -/
theorem Effect.apply_mem_wf (e : Effect) {s : State} (h : s.mem.wf = true) :
    (e.apply s).mem.wf = true := by
  cases e
  case store | shiftMem | count | pushByte | pushStatus => exact Memory.wf_write _ _ h
  case call => exact Memory.wf_write _ _ (Memory.wf_write _ _ h)
  all_goals exact h

/-- The load convention (R31): Break is 0 and Break2 is 1 in every status byte popped. -/
theorem statusFromStack_break (v : Byte) :
    (statusFromStack v).getLsbD 4 = false ∧ (statusFromStack v).getLsbD 5 = true :=
  ⟨statusFromStack_bits v 4 (by decide), statusFromStack_bits v 5 (by decide)⟩

/-- Break and Break2 keep their values, since PLP and RTI load P under the load convention and no other
instruction writes them. -/
theorem Effect.apply_break {e : Effect} {m : Mnemonic} (hm : m ∈ e.mnemonics) {s : State}
    (h : s.p.getLsbD 4 = false ∧ s.p.getLsbD 5 = true) :
    (e.apply s).p.getLsbD 4 = false ∧ (e.apply s).p.getLsbD 5 = true := by
  by_cases he : Flag.brk ∉ e.flags ∧ Flag.break2 ∉ e.flags
  · exact ⟨(e.apply_flag s he.1).trans h.1, (e.apply_flag s he.2).trans h.2⟩
  · cases e
    case pullStatus | returnInterrupt => exact statusFromStack_break _
    case writeFlag f b => cases f <;> simp [Effect.flags, Effect.mnemonics] at he hm
    all_goals simp [Effect.flags] at he

/-- In a run an instruction's effect keeps the invariant: it latches no error and cannot make the unit
FAULTED. -/
theorem Effect.apply_unitInv {e : Effect} {m : Mnemonic} (hm : m ∈ e.mnemonics) {s : State}
    (h : UnitInv s) (hr : s.runState = .running) : UnitInv (e.apply s) where
  memory := e.apply_mem_wf h.memory
  status hw := Effect.apply_break hm (h.status ((e.apply_wasReset s).symm.trans hw))
  latch := by
    have hne : ¬ s.error ≠ none := fun hn => by simpa [hr] using h.latch.mp hn
    rw [e.apply_error]
    rcases e.apply_runState s with ht | ht <;> simp [ht, hr, hne]
  begun _ := (e.apply_wasReset s).trans (h.begun (by simp [hr]))

/-! ### No effect of I and D -/

/-- From two states that differ in I and D alone, every effect but PHP's leaves two such states. -/
theorem Effect.apply_setP {e : Effect} (he : e ≠ .pushStatus) (s : State) {q : Byte}
    (h : AlikeButID s.p q) :
    ∃ q', e.apply (s.setP q) = (e.apply s).setP q' ∧ AlikeButID (e.apply s).p q' := by
  cases e
  case pushStatus => exact absurd rfl he
  case loadA | loadX | loadY | count | pullA => exact ⟨_, rfl, h.setZN _⟩
  case add m =>
    have hadd : addWithCarry m (s.setP q) =
        (addWithCarry m s).setP (addFlags q s.a m (s.flag .carry)) := by
      rw [addWithCarry, carry_setP_of_alike h]
      rfl
    exact ⟨_, hadd, h.addFlags _ _ _⟩
  case shiftA | shiftMem => exact ⟨_, rfl, h.shiftFlags _⟩
  case compare => exact ⟨_, rfl, h.compareFlags _ _⟩
  case bitTest => exact ⟨_, rfl, h.bitTestFlags _ _⟩
  case writeFlag => exact ⟨_, rfl, h.setFlag _ _⟩
  case returnInterrupt | pullStatus => exact ⟨_, rfl, .refl _⟩
  all_goals exact ⟨q, rfl, h⟩

/-- PHP is the only instruction with its mnemonic. -/
theorem eq_php_of_mnemonic {i : Instr} (h : i.entry.mnemonic = .php) : i = .php := by
  revert h
  cases i <;> decide

end Sys2Proof.Machine
end

section
/-!
PROOF. The invariant along steps and host commands, and hence of every reachable state.
-/

namespace Sys2Proof.Machine

/-- Step 4 moves PC at most, and the fetch PC and pcd, of which the invariant does not speak. -/
theorem UnitInv.skipOperands {s : State} (h : UnitInv s) (n : Nat) : UnitInv (skipOperands n s) := by
  rw [skipOperands_eq]
  exact ⟨h.memory, h.status, h.latch, h.begun⟩

theorem UnitInv.inDispatch {s : State} (h : UnitInv s) : UnitInv (inDispatch s) :=
  ⟨h.memory, h.status, h.latch, h.begun⟩

/-- A fatal error in a run latches the error and makes the unit FAULTED, both at once (R230). -/
theorem UnitInv.raiseFatal {s : State} (h : UnitInv s) (hr : s.runState = .running) (e : FatalError) :
    UnitInv (raiseFatal e s) where
  memory := h.memory
  status := h.status
  latch := by simp [Machine.raiseFatal]
  begun _ := h.begun (by simp [hr])

theorem UnitInv.step {s t : State} (h : UnitInv s) (hst : step s = .next t) : UnitInv t := by
  cases hr : s.runState with
  | idle =>
    cases (step_idle hr).symm.trans hst
    exact h
  | faulted => cases (step_faulted hr).symm.trans hst
  | running =>
    cases hl : lookup (s.mem.read s.pc) with
    | none =>
      cases (step_unassigned hr hl).symm.trans hst
      exact h.inDispatch.raiseFatal hr _
    | some i =>
      obtain ⟨e, hm, he⟩ := exec_effect i (Machine.inDispatch s)
      cases (step_assigned hr hl he).symm.trans hst
      exact (Effect.apply_unitInv hm h.inDispatch hr).skipOperands _

theorem UnitInv.setMem {s : State} (h : UnitInv s) {m : Memory} (hm : m.wf = true) :
    UnitInv (s.setMem m) :=
  ⟨hm, h.status, h.latch, h.begun⟩

/-- A reset establishes the whole invariant but for memory, which it keeps (R251, R253). -/
theorem UnitInv.resetUnit {s : State} (h : UnitInv s) : UnitInv (resetUnit s) where
  memory := h.memory
  status _ := show Config.pReset.getLsbD 4 = false ∧ Config.pReset.getLsbD 5 = true by decide
  latch := by simp [Machine.resetUnit]
  begun _ := rfl

theorem UnitInv.hostLoad {s t : State} (h : UnitInv s) {bytes : List Byte}
    (ht : hostLoad bytes s = .next t) : UnitInv t := by
  unfold Machine.hostLoad at ht
  split at ht
  · cases ht
  · cases ht
    exact h.setMem (Memory.wf_writeWord _ _ (Memory.wf_writeBytes _ _ h.memory))

/-- `run` is accepted of an IDLE unit that has been reset only, and makes it RUNNING (R242). -/
theorem UnitInv.hostRun {s t : State} (h : UnitInv s) (hn : s.runState ≠ .running)
    (ht : hostRun s = .next t) : UnitInv t := by
  cases hr : s.runState with
  | running => exact absurd hr hn
  | faulted => simp [Machine.hostRun, hr] at ht
  | idle =>
    have hw : s.wasReset = true := by
      by_contra hw
      simp [Machine.hostRun, hr, hw] at ht
    obtain rfl : s.setRunState .running = t := by simpa [Machine.hostRun, hr, hw] using ht
    exact ⟨h.memory, h.status, by simpa [hr] using h.latch, fun _ => hw⟩

theorem UnitInv.hostCommand {s t : State} (h : UnitInv s) (c : HostCommand)
    (ht : hostCommand c s = .next t) : UnitInv t := by
  by_cases hr : s.runState = .running
  · cases (hostCommand_running hr c).symm.trans ht
  rw [hostCommand_accepted hr] at ht
  cases c with
  | load bytes => exact h.hostLoad ht
  | reset => cases ht; exact h.resetUnit
  | run => exact h.hostRun hr ht
  | memRead => cases ht; exact h
  | memWrite a v => cases ht; exact h.setMem (Memory.wf_write _ _ h.memory)
  | loadAndRun bytes =>
    simp only [hostLoadAndRun] at ht
    cases hl : Machine.hostLoad bytes s <;> simp only [hl, reduceCtorEq] at ht
    exact (h.hostLoad hl).resetUnit.hostRun (by simp [Machine.resetUnit]) ht

/-- The base case: memory is empty, the unit IDLE, nothing latched (R46, R254). -/
theorem unitInv_created : UnitInv State.created where
  memory := rfl
  status h := by simp [State.created] at h
  latch := by simp [State.created]
  begun h := absurd rfl h

theorem Reachable.unitInv {s : State} (h : Reachable s) : UnitInv s := by
  induction h with
  | created => exact unitInv_created
  | command c _ hc ih => exact ih.hostCommand c hc
  | step _ hst ih => exact ih.step hst

/-! ### Memories in canonical form are determined by what they read as -/

theorem Memory.wfFrom_cons {lo k : Nat} {v : Byte} {m : Memory} :
    Memory.wfFrom lo ((k, v) :: m) = true ↔
      lo ≤ k ∧ k < Config.memSize ∧ v ≠ Config.memInit ∧ Memory.wfFrom (k + 1) m = true := by
  simp [Memory.wfFrom, and_assoc]

theorem Memory.get_head (k : Nat) (v : Byte) (m : Memory) : Memory.get ((k, v) :: m) k = v := by
  simp [Memory.get]

/-- A cell that holds anything but 0x00 is not below every listed one. -/
theorem Memory.le_of_get_ne {m : Memory} {lo k : Nat} (hm : Memory.wfFrom lo m = true)
    (h : Memory.get m k ≠ Config.memInit) : lo ≤ k :=
  Nat.le_of_not_lt fun hk => h (Memory.get_of_wfFrom hm hk)

/-- Two lists in canonical form with the same content everywhere: the lowest cell that is not 0x00 is the
first one listed in both. -/
theorem Memory.eq_of_get_eq {m m' : Memory} {lo lo' : Nat} (hm : Memory.wfFrom lo m = true)
    (hm' : Memory.wfFrom lo' m' = true)
    (hget : ∀ j, j < Config.memSize → Memory.get m j = Memory.get m' j) : m = m' := by
  induction m generalizing lo lo' m' with
  | nil =>
    cases m' with
    | nil => rfl
    | cons c' m' =>
      obtain ⟨k', v'⟩ := c'
      obtain ⟨-, hk', hv', -⟩ := Memory.wfFrom_cons.mp hm'
      exact absurd ((hget k' hk').trans (Memory.get_head k' v' m')).symm hv'
  | cons c m ih =>
    obtain ⟨k, v⟩ := c
    obtain ⟨-, hk, hv, htail⟩ := Memory.wfFrom_cons.mp hm
    have hgetk := (hget k hk).symm.trans (Memory.get_head k v m)
    cases m' with
    | nil => exact absurd hgetk.symm hv
    | cons c' m' =>
      obtain ⟨k', v'⟩ := c'
      obtain ⟨-, hk', hv', htail'⟩ := Memory.wfFrom_cons.mp hm'
      have hgetk' := (hget k' hk').trans (Memory.get_head k' v' m')
      have hle : k' ≤ k := Memory.le_of_get_ne (m := (k', v') :: m')
        (Memory.wfFrom_cons.mpr ⟨le_rfl, hk', hv', htail'⟩) (hgetk ▸ hv)
      have hle' : k ≤ k' := Memory.le_of_get_ne (m := (k, v) :: m)
        (Memory.wfFrom_cons.mpr ⟨le_rfl, hk, hv, htail⟩) (hgetk' ▸ hv')
      obtain rfl : k = k' := Nat.le_antisymm hle' hle
      obtain rfl : v = v' := hgetk.symm.trans (Memory.get_head k v' m')
      rw [ih htail htail' fun j hj => ?_]
      by_cases hkj : k = j
      · subst hkj
        rw [Memory.get_of_wfFrom htail k.lt_succ_self, Memory.get_of_wfFrom htail' k.lt_succ_self]
      · simpa [Memory.get, hkj] using hget j hj

end Sys2Proof.Machine
end

section
/-!
PROOF. The statements of the family 10_state.md, each from the lemmas above.
-/

namespace Sys2Proof.Machine

/-- Settles O9: an instruction's effect, step 4, and a fatal error each keep the invariant in a run. -/
theorem stepKeepsInvariant : Obligations.StepKeepsInvariant := by
  unfold Obligations.StepKeepsInvariant
  exact fun _ _ h hst => h.step hst

/-- Settles O53: both states answer the same effect, and no effect but PHP's reads I or D. -/
theorem decimalAndInterruptFlagsHaveNoEffect : Obligations.DecimalAndInterruptFlagsHaveNoEffect := by
  unfold Obligations.DecimalAndInterruptFlagsHaveNoEffect
  intro i s s' hi hs h
  obtain ⟨q, rfl⟩ : ∃ q, s' = s.setP q := ⟨_, hs⟩
  obtain ⟨e, hm, he, he'⟩ := exec_actsAs i s h
  have hphp : e ≠ .pushStatus := by
    rintro rfl
    exact hi (eq_php_of_mnemonic (List.mem_singleton.mp hm))
  obtain ⟨q', ha, hq⟩ := Effect.apply_setP hphp s h
  exact ⟨_, _, he, he'.trans (congrArg _ ha), rfl, hq⟩

/-- Settles O10: the invariant holds at creation and along every command and step. -/
theorem reachableStatesMeetInvariant : Obligations.ReachableStatesMeetInvariant := by
  unfold Obligations.ReachableStatesMeetInvariant
  intro s hs
  obtain ⟨hmem, hstatus, hlatch, hbegun⟩ := hs.unitInv
  exact ⟨hmem, hstatus, hlatch, hbegun⟩

/-- Settles O54: the effect of an instruction that is no writer of a flag is not listed to change it. -/
theorem flagsChangeOnlyByListedInstructions : Obligations.FlagsChangeOnlyByListedInstructions := by
  unfold Obligations.FlagsChangeOnlyByListedInstructions
  intro i s
  obtain ⟨e, hm, he⟩ := exec_effect i s
  have keeps := Effect.apply_flag_of_not_writer s hm
  exact ⟨_, he, keeps .carry, keeps .zero, keeps .interruptDisable, keeps .decimal, keeps .brk,
    keeps .break2, keeps .overflow, keeps .negative⟩

/-- Settles O55: an effect keeps a register, or memory, or else belongs to its listed writers. -/
theorem registersAndMemoryChangeOnlyByListedInstructions :
    Obligations.RegistersAndMemoryChangeOnlyByListedInstructions := by
  unfold Obligations.RegistersAndMemoryChangeOnlyByListedInstructions
  intro i s
  obtain ⟨e, hm, he⟩ := exec_effect i s
  exact ⟨_, he, fun hn => (e.apply_a s).resolve_right fun hw => hn (hw hm),
    fun hn => (e.apply_x s).resolve_right fun hw => hn (hw hm),
    fun hn => (e.apply_y s).resolve_right fun hw => hn (hw hm),
    fun hn => (e.apply_sp s).resolve_right fun hw => hn (hw hm),
    fun hn => (e.apply_pc s).resolve_right fun hw => hn (hw hm),
    fun hn => (e.apply_mem s).resolve_right fun hw => hn (hw hm)⟩

/-- Settles O56: reading every one of the 65536 addresses is reading every cell a canonical list can
hold. -/
theorem canonicalMemoriesThatReadAlikeAreEqual :
    Obligations.CanonicalMemoriesThatReadAlikeAreEqual := by
  unfold Obligations.CanonicalMemoriesThatReadAlikeAreEqual
  intro m m' hm hm' h
  refine Memory.eq_of_get_eq hm hm' fun j hj => ?_
  simpa [Memory.read, Nat.mod_eq_of_lt (show j < 65536 from hj)] using h (BitVec.ofNat 16 j)

end Sys2Proof.Machine
end

section
/-!
PROOF. The decoder on an instruction's own opcode byte, and the statement of the family 30_encoding.md that is
about sample bytes. Each sample byte is the one its instruction is encoded with (R79), so that the matrix of R78
gives the instruction back is `lookup_opcode`.
-/

namespace Sys2Proof

/-- As many operand bytes as the length asks for are taken, and no byte after them. -/
theorem decode_opcode_append (i : Instr) (operands rest : List Byte)
    (hlen : operands.length = i.length - 1) :
    decode (i.opcode :: (operands ++ rest)) = .ok (⟨i, operands⟩, rest) := by
  have henough : ¬ (operands ++ rest).length < i.length - 1 := by
    rw [List.length_append]
    omega
  simp only [decode, lookup_opcode, if_neg henough, List.take_left' hlen, List.drop_left' hlen]

/-- An opcode byte with too few bytes after it is turned away by its instruction's name. -/
theorem decode_opcode_truncated (i : Instr) {bs : List Byte} (hshort : bs.length < i.length - 1) :
    decode (i.opcode :: bs) = .error (.truncated i) := by
  simp only [decode, lookup_opcode, if_pos hshort]

/-- Settles O13: each byte is the opcode byte of its instruction, with as many bytes after it as the
instruction's length asks for, or, for the JSR, one too few. -/
theorem sampleOpcodeBytesDecode : Obligations.SampleOpcodeBytesDecode := by
  unfold Obligations.SampleOpcodeBytesDecode
  refine ⟨⟨lookup_opcode .ldaIndY, lookup_opcode .stxZpY, lookup_opcode .adcImm, lookup_opcode .sbcAbsX,
    lookup_opcode .rorAcc, lookup_opcode .rolAbsX, lookup_opcode .decZp, lookup_opcode .bitAbs,
    lookup_opcode .cpyImm, lookup_opcode .bvs, lookup_opcode .jmpInd, lookup_opcode .jsr,
    lookup_opcode .rti, lookup_opcode .php, lookup_opcode .sed, lookup_opcode .brk⟩, ?_, ?_, ?_, ?_⟩
  · exact decode_opcode_append .ldaImm [0x05] [0x00] rfl
  · exact decode_opcode_append .jmpInd [0xFF, 0x30] [] rfl
  · exact decode_opcode_append .bne [0xFB] [] rfl
  · exact decode_opcode_truncated .jsr (by decide)

end Sys2Proof
end

section
/-!
PROOF. The parts of a RUNNING step put together (spec 40_step_and_addressing.md R90 to R94), and the resolver's
values in plain arithmetic (R96 to R106): the statements of the family 40_step_and_addressing.md.
-/

namespace Sys2Proof

/-- What decodes has as many operand bytes as its opcode asks for (R83). -/
theorem wellFormed_of_decode {bs rest : List Byte} {c : InstrBytes} (h : decode bs = .ok (c, rest)) :
    c.wellFormed = true := by
  cases bs with
  | nil => cases h
  | cons b bs =>
    obtain ⟨-, henough, hops, -⟩ := decode_ok h
    have hpos := (length_range c.instr).1
    have hlen : c.operands.length = c.instr.length - 1 := by
      rw [hops, List.length_take_of_le henough]
    simp only [InstrBytes.wellFormed, beq_iff_eq]
    omega

namespace Machine

/-! ### One RUNNING step -/

/-- No effect writes pcd (R42). -/
theorem Effect.apply_pcd (e : Effect) (s : State) : (e.apply s).pcd = s.pcd := by cases e <;> rfl

/-- An effect that touches the run state is BRK's. -/
theorem Effect.apply_runState_or_brk (e : Effect) (s : State) :
    (e.apply s).runState = s.runState ∨ e.mnemonics ⊆ [.brk] := by
  cases e
  case halt => exact .inr (List.Subset.refl _)
  all_goals exact .inl rfl

/-- BRK is the only instruction with its mnemonic. -/
theorem eq_brk_of_mnemonic {i : Instr} (h : i.entry.mnemonic = .brk) : i = .brk := by
  revert h
  cases i <;> decide

/-- The instructions of the mnemonics that may write PC: the branches, the jumps, JSR and the returns. -/
theorem mem_transfers_of_mnemonic {i : Instr}
    (h : i.entry.mnemonic ∈ ([.bcc, .bcs, .bne, .beq, .bpl, .bmi, .bvc, .bvs, .jmp, .jsr, .rts,
      .rti] : List Mnemonic)) :
    i ∈ ([.bcc, .bcs, .bne, .beq, .bpl, .bmi, .bvc, .bvs, .jmpAbs, .jmpInd, .jsr, .rts,
      .rti] : List Instr) := by
  revert h
  cases i <;> decide

/-- A RUNNING step on an assigned opcode byte: an effect of the instruction's mnemonic in dispatch, then
step 4 (R90). -/
theorem step_effect {s : State} {i : Instr} (hr : s.runState = .running)
    (hl : lookup (s.mem.read s.pc) = some i) :
    ∃ e : Effect, i.entry.mnemonic ∈ e.mnemonics ∧
      exec i (inDispatch s) = .next (e.apply (inDispatch s)) ∧
      step s = .next (skipOperands i.length (e.apply (inDispatch s))) := by
  obtain ⟨e, hm, he⟩ := exec_effect i (inDispatch s)
  exact ⟨e, hm, he, step_assigned hr hl he⟩

/-- Step 4 after an effect that keeps pcd, whether or not the run goes on (R94). -/
theorem skipOperands_of_pcd {s t : State} {n : Nat} (hn : 1 ≤ n) (hpcd : t.pcd = s.pc + 1#16) :
    skipOperands n t =
      { t with pc := if t.runState = .running ∧ t.pc = s.pc + 1#16 then s.pc + BitVec.ofNat 16 n
                     else t.pc } := by
  by_cases hr : t.runState = .running
  · simp only [skipOperands_claim hn hpcd (.inl hr), hr, true_and]
  · simp only [skipOperands_eq, hr, false_and, if_false]

/-- Settles O19: the effect leaves PC at pcd, and step 4 adds the rest of the length; where it is skipped,
after BRK, there is no rest. -/
theorem ordinaryStepAdvancesPcByLength : Obligations.OrdinaryStepAdvancesPcByLength := by
  unfold Obligations.OrdinaryStepAdvancesPcByLength
  intro s i hr hl hi
  obtain ⟨e, hm, -, hstep⟩ := step_effect hr hl
  have hpc : (e.apply (inDispatch s)).pc = s.pc + 1#16 :=
    (e.apply_pc _).resolve_right fun hw => hi (mem_transfers_of_mnemonic (hw hm))
  have hrun : (e.apply (inDispatch s)).runState = .running ∨ i.length = 1 := by
    rcases e.apply_runState_or_brk (inDispatch s) with h | hbrk
    · exact .inl (h.trans hr)
    · obtain rfl := eq_brk_of_mnemonic (List.mem_singleton.mp (hbrk hm))
      exact .inr rfl
  refine ⟨_, hstep, ?_⟩
  rw [skipOperands_claim (length_range i).1 (e.apply_pcd _) hrun]
  exact if_pos hpc

/-- Settles O14: the instruction decoded is the one looked up, and step 4 follows its effect. -/
theorem stepRunsDecodedInstruction : Obligations.StepRunsDecodedInstruction := by
  unfold Obligations.StepRunsDecodedInstruction
  intro s c rest hr hdec
  obtain ⟨hl, -⟩ := decode_ok hdec
  obtain ⟨e, -, he, hstep⟩ := step_effect hr hl
  rw [skipOperands_of_pcd (length_range c.instr).1 (e.apply_pcd _)] at hstep
  exact ⟨wellFormed_of_decode hdec, _, _, he, hstep, rfl⟩

/-! ### Effective addresses in plain arithmetic -/

/-- An index added to a word, modulo 65536. -/
theorem toNat_word_add_zext16 (hi lo b : Byte) :
    (word hi lo + zext16 b).toNat = (hi.toNat * 256 + lo.toNat + b.toNat) % 65536 := by
  rw [BitVec.toNat_add, toNat_word, toNat_zext16]

/-- An index added to a byte stays in page zero. -/
theorem toNat_zext16_add (b i : Byte) : (zext16 (b + i)).toNat = (b.toNat + i.toNat) % 256 := by
  rw [toNat_zext16, BitVec.toNat_add]

/-- A word read in page zero: the address of its high byte wraps modulo 256 (R104). -/
theorem zeroPageWord_eq (p : Byte) (s : State) :
    zeroPageWord p s =
      word (s.mem.read (BitVec.ofNat 16 ((p.toNat + 1) % 256))) (s.mem.read (BitVec.ofNat 16 p.toNat)) := by
  simp only [zeroPageWord, State.read_eq, zext16_eq, BitVec.toNat_add]
  rfl

/-- Settles O21: the operand word is little-endian, and an index is added to it as a number. -/
theorem directModesAddressOperand : Obligations.DirectModesAddressOperand := by
  unfold Obligations.DirectModesAddressOperand
  exact fun s => ⟨rfl, congrArg some (zext16_eq _), congrArg some (word_eq_hiLo _ _),
    ⟨_, rfl, toNat_word_add_zext16 _ _ s.x⟩, ⟨_, rfl, toNat_word_add_zext16 _ _ s.y⟩⟩

/-- Settles O22: the index is added to the byte, before it becomes an address. -/
theorem zeroPageIndexingStaysInPageZero : Obligations.ZeroPageIndexingStaysInPageZero := by
  unfold Obligations.ZeroPageIndexingStaysInPageZero
  have below (b : Byte) : (zext16 b).toNat < 0x0100 := (toNat_zext16 b).trans_lt b.isLt
  exact fun s => ⟨⟨_, rfl, toNat_zext16_add _ s.x, below _⟩, ⟨_, rfl, toNat_zext16_add _ s.y, below _⟩⟩

/-- Settles O23: both pointers are read by `zeroPageWord`. -/
theorem indirectModesWrapPointerInPageZero : Obligations.IndirectModesWrapPointerInPageZero := by
  unfold Obligations.IndirectModesWrapPointerInPageZero
  refine fun s => ⟨⟨_, rfl, ?_⟩, ⟨_, rfl, ?_⟩⟩
  · rw [zeroPageWord_eq, word_eq_hiLo, BitVec.toNat_add]
    rfl
  · rw [zeroPageWord_eq]
    exact toNat_word_add_zext16 _ _ s.y

/-- Settles O24: no address is the fatal error, and every other mode has one. -/
theorem noneAddressingIsFatalToResolve : Obligations.NoneAddressingIsFatalToResolve := by
  unfold Obligations.NoneAddressingIsFatalToResolve
  exact ⟨fun s k => ⟨_, withAddress_noneAddressing s k, raiseFatal_eq _ s, rfl⟩,
    fun _ s hm => resolve_isSome hm s⟩

end Machine

end Sys2Proof
end

section
/-!
PROOF. Rows of the opcode table: a form made of its instruction's own byte, length and mode needs nothing more than
what `exec` answers for it. With it the statements of the family 41_load_store_transfer.md.
-/

namespace Sys2Proof.Machine

/-- The row of the opcode table that stands for an instruction (R79). -/
def formOf (i : Instr) : Form := ⟨i.opcode, i, i.length, i.mode⟩

section
variable {f : Form} {effect : State → State → Prop} (hf : f = formOf f.instr)
include hf

/-- Such a row is looked up by its own byte, and its length is at least 1 (R73, R78). -/
theorem row_of_eq_formOf :
    (lookup f.code = some f.instr ∧ f.instr.length = f.len ∧ f.instr.mode = f.mode) ∧ 1 ≤ f.len := by
  rw [hf]
  exact ⟨⟨lookup_opcode _, rfl, rfl⟩, (length_range _).1⟩

/-- What `exec` answers is all that a claim about a form asks: no instruction writes pcd, and none but the
one-byte BRK ends the run. -/
theorem performs_of_next (h : ∀ s, ∃ t, exec f.instr s = .next t ∧ effect s t) : Performs f effect := by
  obtain ⟨hrow, hlen⟩ := row_of_eq_formOf hf
  refine performs_of_exec hrow hlen fun s => ?_
  obtain ⟨t, ht, heff⟩ := h s
  obtain ⟨e, hm, he⟩ := exec_effect f.instr s
  cases ht.symm.trans he
  refine ⟨_, he, heff, e.apply_pcd s, (e.apply_runState_or_brk s).imp_right fun hbrk => ?_⟩
  rw [← hrow.2.1, eq_brk_of_mnemonic (List.mem_singleton.mp (hbrk hm))]
  rfl

/-! ### Loads and stores, whatever the mode -/

variable (hm : f.mode ≠ .noneAddressing)
include hm

/-- A load of a register: `put` writes the register and the status byte of a state. -/
theorem performs_load (put : State → Byte → Byte → State) (hput : ∀ s v p, (put s v p).p = p)
    (hx : ∀ s, exec f.instr s = withOperand f.mode s fun v => put s v (setZN s.p v)) :
    Performs f fun s t => ∃ ea, resolve f.mode s = some ea ∧
      t = put s (s.mem.read ea) t.p ∧
      BitsWritten s.p t.p [(1, s.mem.read ea == 0#8), (7, (s.mem.read ea).msb)] := by
  refine performs_of_next hf fun s => ?_
  obtain ⟨ea, hea, he⟩ := withOperand_next hm s fun v => put s v (setZN s.p v)
  refine ⟨_, (hx s).trans he, ea, hea, ?_⟩
  rw [hput]
  exact ⟨rfl, setZN_bits _ _⟩

/-- A store of a register: `reg` is A, X or Y as a function of the state. -/
theorem performs_storeRegister (reg : State → Byte)
    (hx : ∀ s, exec f.instr s = storeOperand f.mode (reg s) s) :
    Performs f fun s t => ∃ ea, resolve f.mode s = some ea ∧
      t = { s with mem := t.mem } ∧ ByteStored s.mem t.mem ea (reg s) := by
  obtain ⟨hrow, hlen⟩ := row_of_eq_formOf hf
  exact performs_store hrow hlen hm hx fun s ea hea m hstored => ⟨ea, hea, rfl, hstored⟩

end

/-- Settles O25: each of the eight forms is LDA in its own mode. -/
theorem loadACopiesOperand : Obligations.LoadACopiesOperand := by
  unfold Obligations.LoadACopiesOperand
  intro f hf
  fin_cases hf <;>
    exact performs_load rfl (by decide) (fun s v p => (s.setA v).setP p) (fun _ _ _ => rfl) fun _ => rfl

/-- Settles O26: each of the five forms is LDX in its own mode. -/
theorem loadXCopiesOperand : Obligations.LoadXCopiesOperand := by
  unfold Obligations.LoadXCopiesOperand
  intro f hf
  fin_cases hf <;>
    exact performs_load rfl (by decide) (fun s v p => (s.setX v).setP p) (fun _ _ _ => rfl) fun _ => rfl

/-- Settles O27: each of the five forms is LDY in its own mode. -/
theorem loadYCopiesOperand : Obligations.LoadYCopiesOperand := by
  unfold Obligations.LoadYCopiesOperand
  intro f hf
  fin_cases hf <;>
    exact performs_load rfl (by decide) (fun s v p => (s.setY v).setP p) (fun _ _ _ => rfl) fun _ => rfl

/-- Settles O28: a transfer is a load of the source register's value, with the flags that go with it; TXS
writes S and not P. -/
theorem transfersCopyRegister : Obligations.TransfersCopyRegister := by
  unfold Obligations.TransfersCopyRegister
  refine ⟨?tax, ?tay, ?txa, ?tsx, ?tya, ?txs⟩
  case txs => exact performs_of_next rfl fun s => ⟨s.setSp s.x, rfl, rfl⟩
  all_goals exact performs_of_next rfl fun s => ⟨_, rfl, rfl, setZN_bits s.p _⟩

/-- Settles O29: each form stores its mnemonic's register in its own mode. -/
theorem storesWriteOneByte : Obligations.StoresWriteOneByte := by
  unfold Obligations.StoresWriteOneByte
  refine ⟨fun f hf => ?sta, fun f hf => ?stx, fun f hf => ?sty⟩
  case sta => fin_cases hf <;> exact performs_storeRegister rfl (by decide) State.a fun _ => rfl
  case stx => fin_cases hf <;> exact performs_storeRegister rfl (by decide) State.x fun _ => rfl
  case sty => fin_cases hf <;> exact performs_storeRegister rfl (by decide) State.y fun _ => rfl

end Sys2Proof.Machine
end

section
/-!
PROOF. The adder in signed and unsigned arithmetic (spec 42_arithmetic_logic.md R130 to R132), and the statements of
the family: a form of ADC or SBC hands the adder a byte, a form of AND, EOR or ORA loads A with a combination.
-/

namespace Sys2Proof.Machine

/-! ### The adder on signed and on unsigned bytes -/

/-- The result read as signed is the signed sum, wrapped into the signed range. -/
theorem toInt_addResult (a m : Byte) (c : Bool) :
    (addResult a m c).toInt = (a.toInt + m.toInt + c.toNat).bmod 256 := by
  rw [addResult_eq, BitVec.toInt_ofNat', BitVec.toInt_eq_toNat_bmod a, BitVec.toInt_eq_toNat_bmod m]
  simp only [Int.bmod_def]
  omega

/-- Operands of one sign and a result of the other: the signed sum has left the signed range. -/
theorem addOverflow_iff (a m : Byte) (c : Bool) :
    addOverflow a m c = true ↔
      a.toInt + m.toInt + c.toNat < -128 ∨ 127 < a.toInt + m.toInt + c.toNat := by
  have hsum := toInt_addResult a m c
  have ha := And.intro a.le_toInt a.toInt_lt
  have hm := And.intro m.le_toInt m.toInt_lt
  have hc := c.toNat_le
  simp only [addOverflow, BitVec.msb_eq_toInt, Bool.and_eq_true, beq_iff_eq, bne_iff_ne, ne_eq,
    decide_eq_decide]
  rw [Int.bmod_def] at hsum
  omega

/-- Inside the signed range nothing is wrapped. -/
theorem toInt_addResult_of_addOverflow {a m : Byte} {c : Bool} (h : addOverflow a m c = false) :
    (addResult a m c).toInt = a.toInt + m.toInt + c.toNat := by
  have hrange := (addOverflow_iff a m c).not.mp (by simp [h])
  rw [toInt_addResult, Int.bmod_eq_of_le] <;> omega

/-- The complement, read as signed, is one less than the negation (R132). -/
theorem toInt_subtrahend (m : Byte) : (subtrahend m).toInt = -m.toInt - 1 := by
  rw [BitVec.toInt_eq_toNat_cond, BitVec.toInt_eq_toNat_cond, toNat_subtrahend]
  omega

/-! ### What the adder leaves in a state -/

/-- `t` is `s` after `AddWithCarry(m)`: A, C, Z, V and N from the sum as a number, nothing else changed
(R130). -/
def Adds (m : Byte) (s t : State) : Prop :=
  let sum : Nat := s.a.toNat + m.toNat + (s.p.getLsbD 0).toNat
  let r : Byte := BitVec.ofNat 8 (sum % 256)
  t = { s with a := r, p := t.p } ∧
  BitsWritten s.p t.p [(0, decide (255 < sum)), (1, r == 0#8),
    (6, s.a.msb == m.msb && r.msb != s.a.msb), (7, r.msb)]

theorem addWithCarry_adds (m : Byte) (s : State) : Adds m s (addWithCarry m s) := by
  have hr := addResult_eq s.a m (s.flag .carry)
  have hbits := addFlags_bits s.p s.a m (s.flag .carry)
  rw [addOverflow, hr] at hbits
  exact ⟨congrArg (fun r => { s with a := r, p := (addWithCarry m s).p }) hr, hbits⟩

/-- A after `AddWithCarry(m)` (R130). -/
theorem addWithCarry_a (m : Byte) (s : State) :
    (addWithCarry m s).a = addResult s.a m (s.p.getLsbD 0) := rfl

/-- C after `AddWithCarry(m)` (R130). -/
theorem addWithCarry_carry (m : Byte) (s : State) :
    (addWithCarry m s).p.getLsbD 0 = addCarry s.a m (s.p.getLsbD 0) :=
  addFlags_bits s.p s.a m _ 0 (by decide)

/-- V after `AddWithCarry(m)` (R130). -/
theorem addWithCarry_overflow (m : Byte) (s : State) :
    (addWithCarry m s).p.getLsbD 6 = addOverflow s.a m (s.p.getLsbD 0) :=
  addFlags_bits s.p s.a m _ 6 (by decide)

/-- V after `AddWithCarry(m)` says that the signed sum left the signed range. -/
theorem addWithCarry_overflow_iff (m : Byte) (s : State) :
    (addWithCarry m s).p.getLsbD 6 = true ↔
      s.a.toInt + m.toInt + (s.p.getLsbD 0).toNat < -128 ∨
        127 < s.a.toInt + m.toInt + (s.p.getLsbD 0).toNat := by
  rw [addWithCarry_overflow, addOverflow_iff]

/-! ### The forms, whatever the mode -/

/-- A reading form performs its effect on the byte at the address that the resolver gives (R107). -/
theorem withOperand_of_resolve {mode : AddrMode} {s : State} {ea : Word} (h : resolve mode s = some ea)
    (effect : Byte → State) : withOperand mode s effect = .next (effect (s.mem.read ea)) := by
  rw [withOperand, withAddress, h]
  rfl

section
variable {f : Form} (hf : f = formOf f.instr) (hm : f.mode ≠ .noneAddressing)
include hf hm

/-- A form that hands the adder `arg` of its operand: the operand itself for ADC, its complement for SBC
(R131, R132). -/
theorem performs_addWithCarry (arg : Byte → Byte)
    (hx : ∀ s, exec f.instr s = withOperand f.mode s fun v => addWithCarry (arg v) s) :
    Performs f fun s t => ∃ ea, resolve f.mode s = some ea ∧ Adds (arg (s.mem.read ea)) s t := by
  refine performs_of_next hf fun s => ?_
  obtain ⟨ea, hea, he⟩ := withOperand_next hm s fun v => addWithCarry (arg v) s
  exact ⟨_, (hx s).trans he, ea, hea, addWithCarry_adds _ s⟩

/-- A form that combines A with its operand by `op`, which acts on each bit as `bitOp` does (R133). -/
theorem performs_logical {op : Byte → Byte → Byte} (bitOp : Bool → Bool → Bool)
    (hop : ∀ a v k, (op a v).getLsbD k = bitOp (a.getLsbD k) (v.getLsbD k))
    (hx : ∀ s, exec f.instr s = logical op f.mode s) :
    Performs f fun s t => ∃ ea, resolve f.mode s = some ea ∧
      t = { s with a := t.a, p := t.p } ∧
      (∀ k, k < 8 → t.a.getLsbD k = bitOp (s.a.getLsbD k) ((s.mem.read ea).getLsbD k)) ∧
      BitsWritten s.p t.p [(1, t.a == 0#8), (7, t.a.msb)] := by
  refine performs_of_next hf fun s => ?_
  obtain ⟨ea, hea, he⟩ := withOperand_next hm s fun v => loadA (op s.a v) s
  exact ⟨_, (hx s).trans he, ea, hea, rfl, fun k _ => hop _ _ k, setZN_bits s.p _⟩

end

/-! ### The statements -/

/-- Settles O30: each of the eight forms hands the adder its operand. -/
theorem adcAddsOperandAndCarry : Obligations.AdcAddsOperandAndCarry := by
  unfold Obligations.AdcAddsOperandAndCarry
  intro f hf
  fin_cases hf <;> exact performs_addWithCarry rfl (by decide) id fun _ => rfl

/-- Settles O31: each of the eight forms hands the adder the complement of its operand. -/
theorem sbcAddsComplementAndCarry : Obligations.SbcAddsComplementAndCarry := by
  unfold Obligations.SbcAddsComplementAndCarry
  intro f hf
  simp only [← subtrahend_eq]
  fin_cases hf <;> exact performs_addWithCarry rfl (by decide) subtrahend fun _ => rfl

/-- Settles O32: each form is its mnemonic's operation on bytes, which acts bit by bit. -/
theorem logicalInstructionsCombineBitwise : Obligations.LogicalInstructionsCombineBitwise := by
  unfold Obligations.LogicalInstructionsCombineBitwise
  refine ⟨fun f hf => ?and, fun f hf => ?eor, fun f hf => ?ora⟩
  case and =>
    fin_cases hf <;>
      exact performs_logical rfl (by decide) and (fun _ _ _ => BitVec.getLsbD_and) fun _ => rfl
  case eor =>
    fin_cases hf <;>
      exact performs_logical rfl (by decide) xor (fun _ _ _ => BitVec.getLsbD_xor) fun _ => rfl
  case ora =>
    fin_cases hf <;>
      exact performs_logical rfl (by decide) or (fun _ _ _ => BitVec.getLsbD_or) fun _ => rfl

/-- Settles O48: V is the adder's overflow, and without it the result is the signed sum. -/
theorem addOverflowIsSignedRange : Obligations.AddOverflowIsSignedRange := by
  unfold Obligations.AddOverflowIsSignedRange
  intro f hf s ea hea
  have hx : exec f.instr s = adc f.mode s := by fin_cases hf <;> rfl
  refine ⟨_, hx.trans (withOperand_of_resolve hea _), addWithCarry_overflow_iff _ s, fun hv => ?_⟩
  rw [addWithCarry_overflow] at hv
  exact toInt_addResult_of_addOverflow hv

/-- Settles O49: adding the complement and C is subtracting the operand and the borrow, unsigned up to a
multiple of 256 that C tells, and signed exactly. -/
theorem subtractIsBorrowWithSignedOverflow : Obligations.SubtractIsBorrowWithSignedOverflow := by
  unfold Obligations.SubtractIsBorrowWithSignedOverflow
  intro f hf s ea hea
  have hx : exec f.instr s = sbc f.mode s := by fin_cases hf <;> rfl
  refine ⟨_, hx.trans (withOperand_of_resolve hea _), ?result, ?carry, ?overflow⟩
  case result =>
    rw [addWithCarry_a, addResult_eq, BitVec.toNat_ofNat, toNat_subtrahend]
    omega
  case carry =>
    rw [addWithCarry_carry, addCarry, sumWithCarry, toNat_subtrahend, decide_eq_true_iff]
    omega
  case overflow =>
    rw [addWithCarry_overflow_iff, toInt_subtrahend]
    omega

end Sys2Proof.Machine
end

section
/-!
PROOF. Shifts and rotates (spec 43_shift_rotate.md R140 to R144): one lemma for the accumulator form and one for the
memory form of any shifter, given what the shifter computes in arithmetic; the statements supply the four shifters.
-/

namespace Sys2Proof.Machine

/-! ### A shifter on A and in memory -/

section
variable {f : Form} (hf : f = formOf f.instr)
variable {shift : Byte → Bool → Byte × Bool} {result : Byte → Bool → Byte} {out : Byte → Bool → Bool}
variable (hshift : ∀ v c, shift v c = (result v c, out v c))
include hf hshift

/-- The accumulator form of a shifter (R140): A and the old C go in, the result goes to A, the bit shifted
out to C. -/
theorem performs_shiftA (hx : ∀ s, exec f.instr s = shiftA shift s) :
    Performs f fun s t =>
      t = { s with a := result s.a (s.p.getLsbD 0), p := t.p } ∧
      BitsWritten s.p t.p [(0, out s.a (s.p.getLsbD 0)), (1, result s.a (s.p.getLsbD 0) == 0#8),
        (7, (result s.a (s.p.getLsbD 0)).msb)] := by
  refine performs_of_next hf fun s => ⟨_, hx s, ?_⟩
  rw [hshift]
  exact ⟨rfl, shiftFlags_bits s.p _⟩

/-- The memory form of a shifter (R107, R140): the byte at the effective address in the place of A. -/
theorem performs_shiftMem (hm : f.mode ≠ .noneAddressing)
    (hx : ∀ s, exec f.instr s = shiftMem shift f.mode s) :
    Performs f fun s t => ∃ ea, resolve f.mode s = some ea ∧
      t = { s with mem := t.mem, p := t.p } ∧
      ByteStored s.mem t.mem ea (result (s.mem.read ea) (s.p.getLsbD 0)) ∧
      BitsWritten s.p t.p [(0, out (s.mem.read ea) (s.p.getLsbD 0)),
        (1, result (s.mem.read ea) (s.p.getLsbD 0) == 0#8),
        (7, (result (s.mem.read ea) (s.p.getLsbD 0)).msb)] := by
  obtain ⟨hrow, hlen⟩ := row_of_eq_formOf hf
  refine performs_modify hrow hlen hm hx fun s ea hea m hstored => ⟨ea, hea, rfl, ?_⟩
  rw [hshift] at hstored ⊢
  exact ⟨hstored, shiftFlags_bits s.p _⟩

end

/-! ### The statements -/

/-- Settles O33: each form is its mnemonic's shifter on A. -/
theorem accumulatorShiftsMoveOneBit : Obligations.AccumulatorShiftsMoveOneBit := by
  unfold Obligations.AccumulatorShiftsMoveOneBit
  refine ⟨?asl, ?lsr, ?rol, ?ror⟩
  case asl => exact performs_shiftA rfl shiftAsl_eq fun _ => rfl
  case lsr => exact performs_shiftA rfl shiftLsr_eq fun _ => rfl
  case rol => exact performs_shiftA rfl shiftRol_eq fun _ => rfl
  case ror => exact performs_shiftA rfl shiftRor_eq fun _ => rfl

/-- Settles O34: each form is its mnemonic's shifter on the byte its own mode addresses. -/
theorem memoryShiftsMoveOneBit : Obligations.MemoryShiftsMoveOneBit := by
  unfold Obligations.MemoryShiftsMoveOneBit
  refine ⟨fun f hf => ?asl, fun f hf => ?lsr, fun f hf => ?rol, fun f hf => ?ror⟩
  case asl => fin_cases hf <;> exact performs_shiftMem rfl shiftAsl_eq (by decide) fun _ => rfl
  case lsr => fin_cases hf <;> exact performs_shiftMem rfl shiftLsr_eq (by decide) fun _ => rfl
  case rol => fin_cases hf <;> exact performs_shiftMem rfl shiftRol_eq (by decide) fun _ => rfl
  case ror => fin_cases hf <;> exact performs_shiftMem rfl shiftRor_eq (by decide) fun _ => rfl

end Sys2Proof.Machine
end

section
/-!
PROOF. Increment and decrement (spec 44_increment_decrement.md R150 to R156): the model counts in bytes, and
`byte_succ_eq` and `byte_pred_eq` give the sums modulo 256 that the statements name.
-/

namespace Sys2Proof.Machine

/-- A form that counts the byte at its effective address by `change` (R107, R150). -/
theorem performs_countMem {f : Form} (hf : f = formOf f.instr) (hm : f.mode ≠ .noneAddressing)
    {change : Byte → Byte} (hx : ∀ s, exec f.instr s = countMem change f.mode s) :
    Performs f fun s t => ∃ ea, resolve f.mode s = some ea ∧
      t = { s with mem := t.mem, p := t.p } ∧ ByteStored s.mem t.mem ea (change (s.mem.read ea)) ∧
      BitsWritten s.p t.p
        [(1, change (s.mem.read ea) == 0#8), (7, (change (s.mem.read ea)).msb)] := by
  obtain ⟨hrow, hlen⟩ := row_of_eq_formOf hf
  exact performs_modify hrow hlen hm hx fun s ea hea m hstored =>
    ⟨ea, hea, rfl, hstored, setZN_bits s.p _⟩

/-- Settles O35: each form loads its register with the register's own successor or predecessor. -/
theorem indexRegistersCountModulo256 : Obligations.IndexRegistersCountModulo256 := by
  unfold Obligations.IndexRegistersCountModulo256
  simp only [← byte_succ_eq, ← byte_pred_eq]
  refine ⟨?inx, ?iny, ?dex, ?dey⟩
  all_goals exact performs_of_next rfl fun s => ⟨_, rfl, rfl, setZN_bits s.p _⟩

/-- Settles O36: each form counts the byte its own mode addresses, up for INC and down for DEC. -/
theorem memoryCellsCountModulo256 : Obligations.MemoryCellsCountModulo256 := by
  unfold Obligations.MemoryCellsCountModulo256
  simp only [← byte_succ_eq, ← byte_pred_eq]
  refine ⟨fun f hf => ?inc, fun f hf => ?dec⟩
  case inc => fin_cases hf <;> exact performs_countMem rfl (by decide) (change := (· + 1#8)) fun _ => rfl
  case dec => fin_cases hf <;> exact performs_countMem rfl (by decide) (change := (· - 1#8)) fun _ => rfl

end Sys2Proof.Machine
end

section
/-!
PROOF. Compare and bit test (spec 45_compare_bit.md R160 to R164): forms that read their operand and write only P.
`compareFlags_bits` and `bitTestFlags_bits` say which bits, in bytes; here they are read as numbers.
-/

namespace Sys2Proof.Machine

/-- A compare's bits as unsigned numbers: C by order, Z and N from the difference modulo 256 (R160). -/
theorem compareFlags_bits_toNat (p reg m : Byte) :
    let d : Byte := BitVec.ofNat 8 ((reg.toNat + 256 - m.toNat) % 256)
    BitsWritten p (compareFlags p reg m)
      [(0, decide (m.toNat ≤ reg.toNat)), (1, d == 0#8), (7, d.msb)] := by
  simp only [← byte_sub_eq, ← BitVec.le_def]
  exact compareFlags_bits p reg m

/-- BIT's bits, with Z from the AND as a number (R164). -/
theorem bitTestFlags_bits_toNat (p a m : Byte) :
    BitsWritten p (bitTestFlags p a m)
      [(1, decide (a.toNat &&& m.toNat = 0)), (7, m.getLsbD 7), (6, m.getLsbD 6)] := by
  have hz : a.toNat &&& m.toNat = 0 ↔ a &&& m = 0#8 := by
    rw [← BitVec.toNat_and, BitVec.toNat_eq, BitVec.toNat_ofNat, Nat.zero_mod]
  simp only [hz]
  exact bitTestFlags_bits p a m

section
variable {f : Form} (hf : f = formOf f.instr) (hm : f.mode ≠ .noneAddressing)
include hf hm

/-- A form that reads its operand and writes P alone: `writes` are the bits that `flags` gives P (R107). -/
theorem performs_flags {flags : State → Byte → Byte} {writes : State → Byte → List (Nat × Bool)}
    (hbits : ∀ s v, BitsWritten s.p (flags s v) (writes s v))
    (hx : ∀ s, exec f.instr s = withOperand f.mode s fun v => s.setP (flags s v)) :
    Performs f fun s t => ∃ ea, resolve f.mode s = some ea ∧
      t = { s with p := t.p } ∧ BitsWritten s.p t.p (writes s (s.mem.read ea)) := by
  refine performs_of_next hf fun s => ?_
  obtain ⟨ea, hea, he⟩ := withOperand_next hm s fun v => s.setP (flags s v)
  exact ⟨_, (hx s).trans he, ea, hea, rfl, hbits s _⟩

/-- A compare of the register `reg`, A, X or Y as a function of the state (R160). -/
theorem performs_compare (reg : State → Byte) (hx : ∀ s, exec f.instr s = compareWith (reg s) f.mode s) :
    Performs f fun s t => ∃ ea, resolve f.mode s = some ea ∧
      let m : Byte := s.mem.read ea
      let d : Byte := BitVec.ofNat 8 (((reg s).toNat + 256 - m.toNat) % 256)
      t = { s with p := t.p } ∧
      BitsWritten s.p t.p [(0, decide (m.toNat ≤ (reg s).toNat)), (1, d == 0#8), (7, d.msb)] :=
  performs_flags hf hm (fun s => compareFlags_bits_toNat s.p (reg s)) hx

end

/-- Settles O37: each form compares its mnemonic's register in its own mode. -/
theorem comparesWriteCarryZeroNegative : Obligations.ComparesWriteCarryZeroNegative := by
  unfold Obligations.ComparesWriteCarryZeroNegative
  refine ⟨fun f hf => ?cmp, fun f hf => ?cpx, fun f hf => ?cpy⟩
  case cmp => fin_cases hf <;> exact performs_compare rfl (by decide) State.a fun _ => rfl
  case cpx => fin_cases hf <;> exact performs_compare rfl (by decide) State.x fun _ => rfl
  case cpy => fin_cases hf <;> exact performs_compare rfl (by decide) State.y fun _ => rfl

/-- Settles O38: each form is BIT in its own mode. -/
theorem bitTestReadsOperandBits : Obligations.BitTestReadsOperandBits := by
  unfold Obligations.BitTestReadsOperandBits
  intro f hf
  fin_cases hf <;>
    exact performs_flags rfl (by decide) (fun s => bitTestFlags_bits_toNat s.p s.a) fun _ => rfl

end Sys2Proof.Machine
end

section
/-!
PROOF. Branches (spec 46_branch.md R170 to R178): one lemma for the branch on any flag at any value; the statement
supplies the eight.
-/

namespace Sys2Proof.Machine

/-- A branch on a clear flag, as the model writes it, compares the flag with false (R171). -/
theorem branch_clear (flag : Flag) (s : State) :
    branch (!s.flag flag) s = branch (s.flag flag == false) s := by rw [beq_false]

/-- A branch on a set flag, as the model writes it, compares the flag with true (R172). -/
theorem branch_set (flag : Flag) (s : State) :
    branch (s.flag flag) s = branch (s.flag flag == true) s := by rw [beq_true]

/-- A form that branches if `flag` has the value `want`: it tests the flag's bit of P and writes PC alone
(R170). -/
theorem performs_branch {f : Form} (hf : f = formOf f.instr) (flag : Flag) (want : Bool)
    (hx : ∀ s, exec f.instr s = branch (s.flag flag == want) s) :
    Performs f fun s t => t = { s with
      pc := if s.p.getLsbD flag.bit = want then
        s.pc + 1#16 + BitVec.ofInt 16 (s.mem.read s.pc).toInt else s.pc } := by
  refine performs_of_next hf fun s => ⟨_, (hx s).trans (branch_eq_setPc _ s), ?_⟩
  simp only [beq_iff_eq, sext16_eq]
  rfl

/-- Settles O39: each form branches on its mnemonic's flag, clear or set. -/
theorem branchesMovePcBySignedOffset : Obligations.BranchesMovePcBySignedOffset := by
  unfold Obligations.BranchesMovePcBySignedOffset
  simp only [List.forall_mem_cons]
  refine ⟨?bcc, ?bcs, ?bne, ?beq, ?bpl, ?bmi, ?bvc, ?bvs, List.forall_mem_nil _⟩
  case bcc => exact performs_branch rfl .carry false (branch_clear _)
  case bcs => exact performs_branch rfl .carry true (branch_set _)
  case bne => exact performs_branch rfl .zero false (branch_clear _)
  case beq => exact performs_branch rfl .zero true (branch_set _)
  case bpl => exact performs_branch rfl .negative false (branch_clear _)
  case bmi => exact performs_branch rfl .negative true (branch_set _)
  case bvc => exact performs_branch rfl .overflow false (branch_clear _)
  case bvs => exact performs_branch rfl .overflow true (branch_set _)

end Sys2Proof.Machine
end

section
/-!
PROOF. Jumps, calls and returns (spec 47_jump_call_return.md R186 to R190): what is popped and the indirect target in
the claims' spelling, and the whole state that each operation leaves; the statements follow from these.
-/

namespace Sys2Proof.Machine

/-! ### Bytes and words off the stack -/

/-- S goes up by 2 in two pops (R196, R198). -/
theorem byte_succ_succ (v : Byte) : v + 1#8 + 1#8 = v + 2#8 := by
  rw [BitVec.add_assoc]
  rfl

/-- A byte popped lies in the cell above S (R196). -/
theorem popByte_eq (s : State) : popByte s = s.mem.read (stackCell (s.sp + 1#8)) := by
  rw [popByte, stackAddr_eq_stackCell, State.read_eq]

/-- A word popped lies in the two cells above S, the low byte in the lower one (R198). -/
theorem popWord_eq (s : State) :
    popWord s = hiLo (s.mem.read (stackCell (s.sp + 2#8))) (s.mem.read (stackCell (s.sp + 1#8))) := by
  rw [popWord, popByte_eq, popByte_eq, popped_sp, byte_succ_succ, word_eq_hiLo]
  rfl

/-- Popping a word moves S and nothing else (R198). -/
theorem poppedWord_eq (s : State) : poppedWord s = { s with sp := s.sp + 2#8 } := by
  rw [← byte_succ_succ]
  rfl

/-! ### What each operation leaves in a state -/

/-- The state RTS leaves (R189). -/
theorem returnFromSubroutine_eq (s : State) :
    returnFromSubroutine s =
      { s with sp := s.sp + 2#8, pc := hiLo (s.mem.read (stackCell (s.sp + 2#8)))
                                            (s.mem.read (stackCell (s.sp + 1#8))) + 1#16 } := by
  rw [returnFromSubroutine, popWord_eq, poppedWord_eq]
  rfl

/-- The state RTI leaves: the word lies above the status byte (R190). -/
theorem returnFromInterrupt_eq (s : State) :
    returnFromInterrupt s =
      { s with sp := s.sp + 3#8, p := statusFromStack (s.mem.read (stackCell (s.sp + 1#8)))
               pc := hiLo (s.mem.read (stackCell (s.sp + 3#8)))
                          (s.mem.read (stackCell (s.sp + 2#8))) } := by
  have h : s.sp + 1#8 + 2#8 = s.sp + 3#8 := BitVec.add_assoc _ _ _
  simp only [returnFromInterrupt, popWord_eq, poppedWord_eq, popByte_eq, State.setP_sp, popped_sp,
    byte_succ_succ, h]
  rfl

/-- The state JSR leaves, in terms of its memory: the operand is read after the pushes (R188, D5). -/
theorem jumpToSubroutine_eq (s : State) :
    jumpToSubroutine s =
      { s with sp := s.sp - 2#8, mem := (jumpToSubroutine s).mem
               pc := hiLo ((jumpToSubroutine s).mem.read (s.pc + 1#16))
                          ((jumpToSubroutine s).mem.read s.pc) } := by
  have h : s.sp - 1#8 - 1#8 = s.sp - 2#8 := BitVec.sub_sub _ _ _
  rw [← h, ← word_eq_hiLo]
  rfl

/-- JSR leaves the high byte of its last byte's address in the cell S named (R188, R197). -/
theorem read_jumpToSubroutine_high (s : State) :
    (jumpToSubroutine s).mem.read (stackCell s.sp) = highByte (s.pc + 1#16) := by
  rw [read_jumpToSubroutine, if_neg (stackCell_ne_pred _), if_pos rfl]

/-- JSR leaves the low byte of its last byte's address in the cell below (R188, R197). -/
theorem read_jumpToSubroutine_low (s : State) :
    (jumpToSubroutine s).mem.read (stackCell (s.sp - 1#8)) = lowByte (s.pc + 1#16) := by
  rw [read_jumpToSubroutine, if_pos rfl]

/-- JSR writes no other cell (R188, R197). -/
theorem read_jumpToSubroutine_other {s : State} {b : Word} (hhigh : b ≠ stackCell s.sp)
    (hlow : b ≠ stackCell (s.sp - 1#8)) : (jumpToSubroutine s).mem.read b = s.mem.read b := by
  rw [read_jumpToSubroutine, if_neg hlow, if_neg hhigh]

/-- The low byte counts inside its own page: at 0xFF it starts the page again, elsewhere it carries
nothing (R187). -/
theorem word_succ_low (hi lo : Byte) :
    word hi (lo + 1#8) = if lo = 0xFF#8 then word hi lo &&& 0xFF00#16 else word hi lo + 1#16 := by
  split
  case isTrue hlo =>
    have hmask : (0xFF00#16 : Word) = 0xFF#8 ++ 0x00#8 := rfl
    rw [hlo, word, word, hmask, BitVec.and_append, BitVec.and_zero]
    exact congrArg (· ++ 0#8) BitVec.and_allOnes.symm
  case isFalse hlo =>
    have hne : lo.toNat ≠ 255 := fun h => hlo (BitVec.eq_of_toNat_eq h)
    apply BitVec.eq_of_toNat_eq
    simp only [toNat_word, BitVec.toNat_add, BitVec.toNat_ofNat]
    omega

/-- The target JMP indirect reads at a pointer, the high byte in the pointer's own page (R187). -/
theorem indirectTarget_word (hi lo : Byte) (s : State) :
    indirectTarget (word hi lo) s =
      hiLo (s.mem.read (hiLo hi (lo + 1#8))) (s.mem.read (hiLo hi lo)) := by
  simp only [← word_eq_hiLo]
  rw [indirectTarget, lowByte_word, ← apply_ite s.read, ← word_succ_low]
  rfl

/-! ### The statements -/

/-- Settles O40: both jumps set PC alone, to the operand word or to the word at it. -/
theorem jumpsLoadPc : Obligations.JumpsLoadPc := by
  unfold Obligations.JumpsLoadPc
  refine ⟨performs_of_next rfl fun s => ⟨_, rfl, ?absolute⟩,
    performs_of_next rfl fun s => ⟨_, rfl, ?indirect⟩⟩
  case absolute => rw [← word_eq_hiLo]; rfl
  case indirect => exact congrArg s.setPc (indirectTarget_word _ _ s)

/-- Settles O41: the state JSR leaves, its two stack cells read as numbers. -/
theorem jsrPushesReturnAddressThenJumps : Obligations.JsrPushesReturnAddressThenJumps := by
  unfold Obligations.JsrPushesReturnAddressThenJumps
  refine performs_of_next rfl fun s => ⟨jumpToSubroutine s, rfl, ?state, ?high, ?low, ?other, ?pc⟩
  case state => rw [jumpToSubroutine_eq]
  case high => rw [read_jumpToSubroutine_high, toNat_highByte]
  case low => rw [read_jumpToSubroutine_low, toNat_lowByte]
  case other => exact fun b => read_jumpToSubroutine_other
  case pc => exact congrArg State.pc (jumpToSubroutine_eq s)

/-- Settles O42: the state RTS leaves is the one stated. -/
theorem rtsPopsReturnAddressPlusOne : Obligations.RtsPopsReturnAddressPlusOne := by
  unfold Obligations.RtsPopsReturnAddressPlusOne
  exact performs_of_next rfl fun s => ⟨_, rfl, returnFromSubroutine_eq s⟩

/-- Settles O43: in the state RTI leaves, P is the byte popped under the load convention. -/
theorem rtiPopsStatusThenPc : Obligations.RtiPopsStatusThenPc := by
  unfold Obligations.RtiPopsStatusThenPc
  refine performs_of_next rfl fun s => ⟨returnFromInterrupt s, rfl, ?_⟩
  rw [returnFromInterrupt_eq]
  exact ⟨rfl, statusFromStack_bits _⟩

/-- Settles O51: RTS pops, from the cells JSR wrote, the address of JSR's last byte. -/
theorem returnGoesBehindTheCall : Obligations.ReturnGoesBehindTheCall := by
  unfold Obligations.ReturnGoesBehindTheCall
  intro s t hjsr r hsp hhigh hlow
  obtain rfl : jumpToSubroutine s = t := Host.Outcome.next.inj hjsr
  have hsp' : r.sp = s.sp - 2#8 := hsp.trans (congrArg State.sp (jumpToSubroutine_eq s))
  have htop : r.sp + 2#8 = s.sp := by rw [hsp', BitVec.sub_add_cancel]
  have hnext : r.sp + 1#8 = s.sp - 1#8 := by bv_omega
  refine ⟨_, rfl, ?pc, ?sp⟩
  case sp => rw [returnFromSubroutine_eq, htop]
  case pc =>
    have hword : hiLo (r.mem.read (stackCell s.sp)) (r.mem.read (stackCell (s.sp - 1#8))) =
        s.pc + 1#16 := by
      rw [hhigh, hlow, read_jumpToSubroutine_high, read_jumpToSubroutine_low, ← word_eq_hiLo,
        word_high_low]
    rw [returnFromSubroutine_eq, htop, hnext, hword]
    exact BitVec.add_assoc _ _ _

end Sys2Proof.Machine
end

section
/-!
PROOF. Pushes and pulls (spec 48_stack.md R195 to R203): what a push leaves in memory, in the claims' spelling, and that
pulling the status byte PHP pushed gives P back; the statements follow from these.
-/

namespace Sys2Proof.Machine

/-- A push stores its byte in the cell S names and nowhere else (R195). -/
theorem byteStored_push (v : Byte) (s : State) :
    ByteStored s.mem (push v s).mem (stackCell s.sp) v := by
  rw [← stackAddr_eq_stackCell]
  exact byteStored_write _ _ _

/-- An address outside the stack page is no stack cell, whatever S (R26). -/
theorem ne_stackCell_of_outside {b : Word} (hb : b.toNat < 0x0100 ∨ 0x01FF < b.toNat) (sp : Byte) :
    b ≠ stackCell sp := by
  rintro rfl
  have hsp := sp.isLt
  rw [toNat_stackCell] at hb
  omega

/-- A push leaves the cells outside the stack page alone (R195, R199). -/
theorem read_push_outside {b : Word} (hb : b.toNat < 0x0100 ∨ 0x01FF < b.toNat) (v : Byte) (s : State) :
    (push v s).mem.read b = s.mem.read b :=
  (byteStored_push v s).2 b (ne_stackCell_of_outside hb _)

/-- The state a push leaves and then a pop, in terms of its memory: S has come back (R195, R196). -/
theorem popped_push_eq (v : Byte) (s : State) :
    popped (push v s) = { s with mem := (push v s).mem } := by
  have hsp : s.sp - 1#8 + 1#8 = s.sp := BitVec.sub_add_cancel _ _
  rw [popped, push_sp, hsp]
  rfl

/-- A status byte with Break 0 and Break2 1 comes back from PHP's copy of it: the load convention undoes what
the copy forced (R31, R203). -/
theorem statusFromStack_statusToStack {p : Byte} (hbreak : p.getLsbD 4 = false)
    (hbreak2 : p.getLsbD 5 = true) : statusFromStack (statusToStack p) = p := by
  refine byte_ext fun k hk => ?_
  rw [statusFromStack_bits _ k hk, statusToStack_bits p k hk]
  obtain rfl | h4 := eq_or_ne k 4
  · exact hbreak.symm
  obtain rfl | h5 := eq_or_ne k 5
  · exact hbreak2.symm
  simp [List.lookup, beq_false_of_ne h4, beq_false_of_ne h5]

/-! ### The statements -/

/-- Settles O44: PHA pushes A, and PHP the copy of P with bits 4 and 5 set. -/
theorem pushesStoreAtStackCell : Obligations.PushesStoreAtStackCell := by
  unfold Obligations.PushesStoreAtStackCell
  refine ⟨performs_of_next rfl fun s => ⟨push s.a s, rfl, ?pha⟩,
    performs_of_next rfl fun s => ⟨push (statusToStack s.p) s, rfl, ?php⟩⟩
  case pha => exact ⟨rfl, byteStored_push _ _⟩
  case php => exact ⟨rfl, _, byteStored_push _ _, statusToStack_bits _⟩

/-- Settles O45: the byte popped, from the cell above S, is loaded into A or into P. -/
theorem pullsLoadFromStackCell : Obligations.PullsLoadFromStackCell := by
  unfold Obligations.PullsLoadFromStackCell
  simp only [← popByte_eq]
  refine ⟨performs_of_next rfl fun s => ⟨loadA (popByte s) (popped s), rfl, ?pla⟩,
    performs_of_next rfl fun s => ⟨(popped s).setP (statusFromStack (popByte s)), rfl, ?plp⟩⟩
  case pla => exact ⟨rfl, setZN_bits _ _⟩
  case plp => exact ⟨rfl, statusFromStack_bits _⟩

/-- Settles O50: the byte popped is the byte pushed, and P survives the two conventions on it. -/
theorem pulledByteIsPushedByte : Obligations.PulledByteIsPushedByte := by
  unfold Obligations.PulledByteIsPushedByte
  refine fun s => ⟨⟨_, _, rfl, rfl, ?a, ?sp⟩, fun hbreak hbreak2 => ⟨_, _, rfl, rfl, ?state, ?other⟩⟩
  case a => exact popByte_push s.a s
  case sp => exact popped_push_sp s.a s
  case state =>
    rw [popByte_push, statusFromStack_statusToStack hbreak hbreak2, popped_push_eq]
    rfl
  case other => exact (byteStored_push (statusToStack s.p) s).2

/-- Settles O52: no cell that PHA, PHP or JSR pushes to lies outside the stack page. -/
theorem pushesStayInStackPage : Obligations.PushesStayInStackPage := by
  unfold Obligations.PushesStayInStackPage
  intro i s hi
  simp only [List.mem_cons, List.not_mem_nil, or_false] at hi
  obtain rfl | rfl | rfl := hi
  · exact ⟨_, rfl, fun b hb => read_push_outside hb _ _⟩
  · exact ⟨_, rfl, fun b hb => read_push_outside hb _ _⟩
  · exact ⟨_, rfl, fun b hb =>
      read_jumpToSubroutine_other (ne_stackCell_of_outside hb _) (ne_stackCell_of_outside hb _)⟩

end Sys2Proof.Machine
end

section
/-!
PROOF. The encoder and the decoder undo each other (spec 30_encoding.md sections 1 to 5): the look-up takes the opcode
byte, and the length says where the operand bytes end.
-/

namespace Sys2Proof

/-- Settles O11: a well-formed instruction brings the operand bytes that its opcode byte asks for. -/
theorem decodeOfEncodeIsIdentity : Obligations.DecodeOfEncodeIsIdentity := by
  unfold Obligations.DecodeOfEncodeIsIdentity
  intro c rest hwf
  have hlen : c.operands.length = c.instr.length - 1 := by
    simp only [InstrBytes.wellFormed, beq_iff_eq] at hwf
    omega
  exact decode_opcode_append c.instr c.operands rest hlen

/-- Settles O12: the byte looked up is the instruction's own, and the bytes after it are cut in two. -/
theorem encodeOfDecodeIsIdentity : Obligations.EncodeOfDecodeIsIdentity := by
  unfold Obligations.EncodeOfDecodeIsIdentity
  intro bs rest c h
  refine ⟨wellFormed_of_decode h, ?_⟩
  cases bs with
  | nil => cases h
  | cons b bs =>
    obtain ⟨hl, -, hops, hrest⟩ := decode_ok h
    rw [encode, opcode_of_lookup hl, hops, hrest, List.cons_append, List.take_append_drop]

end Sys2Proof
end

section
/-!
PROOF. The host commands (spec 60_exceptions.md R239 to R243, 70_reset_and_hazards.md R250 to R258): what `run`, `load`
and `load_and_run` answer case by case, and the cells that a load leaves; the statements about commands.
-/

namespace Sys2Proof.Machine

theorem hostMemRead_running {s : State} (h : s.runState = .running) (a : Word) :
    hostMemRead a s = .error .hostWhileRunning := by
  simp [hostMemRead, h]

/-! ### run (R242) -/

theorem hostRun_idle {s : State} (h : s.runState = .idle) (hw : s.wasReset = true) :
    hostRun s = .next (s.setRunState .running) := by
  simp [hostRun, h, hw]

theorem hostRun_faulted {s : State} (h : s.runState = .faulted) :
    hostRun s = .refused .runWhileFaulted := by
  simp [hostRun, h]

theorem hostRun_never_reset {s : State} (h : s.runState = .idle) (hw : s.wasReset = false) :
    hostRun s = .refused .runBeforeReset := by
  simp [hostRun, h, hw]

/-! ### load (R257) and load_and_run (R258) -/

theorem hostLoad_of_le {bytes : List Byte} (h : bytes.length ≤ Config.maxProgram) (s : State) :
    hostLoad bytes s = .next (loadProgram bytes s) := by
  rw [hostLoad, if_neg (Nat.not_lt.mpr h)]

theorem hostLoad_of_lt {bytes : List Byte} (h : Config.maxProgram < bytes.length) (s : State) :
    hostLoad bytes s = .refused (.programTooLong bytes.length) := by
  rw [hostLoad, if_pos h]

theorem eq_loadProgram_of_hostLoad {bytes : List Byte} {s t : State} (h : hostLoad bytes s = .next t) :
    t = loadProgram bytes s := by
  rcases Nat.lt_or_ge Config.maxProgram bytes.length with hlen | hlen
  · cases (hostLoad_of_lt hlen s).symm.trans h
  · exact (Host.Outcome.next.inj ((hostLoad_of_le hlen s).symm.trans h)).symm

/-- After an accepted load the reset leaves the unit IDLE and reset, so the run is accepted. -/
theorem hostLoadAndRun_next {bytes : List Byte} {s t : State} (h : hostLoad bytes s = .next t) :
    hostLoadAndRun bytes s = .next ((resetUnit t).setRunState .running) := by
  rw [hostLoadAndRun, h]
  exact hostRun_idle rfl rfl

theorem hostLoadAndRun_refused {bytes : List Byte} {s : State} {r : Refusal}
    (h : hostLoad bytes s = .refused r) : hostLoadAndRun bytes s = .refused r := by
  rw [hostLoadAndRun, h]

/-! ### The cells after a load (R257) -/

/-- The vector is written last, low byte first (R257). -/
theorem loadProgram_mem (bytes : List Byte) (s : State) :
    (loadProgram bytes s).mem =
      ((s.mem.writeBytes Config.programBase bytes).write 0xFFFC 0x00).write 0xFFFD 0x80 := rfl

/-- The two cells of the vector hold 0x8000, whatever the program's own bytes there were. -/
theorem read_loadProgram_vector (bytes : List Byte) (s : State) :
    (loadProgram bytes s).mem.read 0xFFFC = 0x00 ∧ (loadProgram bytes s).mem.read 0xFFFD = 0x80 := by
  rw [loadProgram_mem]
  exact ⟨by rw [Memory.read_write_other _ _ (by decide), Memory.read_write_same],
    Memory.read_write_same _ _ _⟩

/-- Every other cell holds what the program's bytes, written alone, leave there. -/
theorem read_loadProgram_other (bytes : List Byte) (s : State) {b : Word} (hlow : b ≠ 0xFFFC)
    (hhigh : b ≠ 0xFFFD) :
    (loadProgram bytes s).mem.read b = (s.mem.writeBytes Config.programBase bytes).read b := by
  rw [loadProgram_mem, Memory.read_write_other _ _ hhigh, Memory.read_write_other _ _ hlow]

/-- A program's bytes lie from 0x8000 on, in the upper half of memory. -/
theorem read_writeBytes_programBase (m : Memory) {bytes : List Byte} (hlen : bytes.length ≤ 0x8000)
    (b : Word) :
    (m.writeBytes Config.programBase bytes).read b =
      if h : 0x8000 ≤ b.toNat ∧ b.toNat < 0x8000 + bytes.length then
        bytes[b.toNat - 0x8000]'(by omega)
      else m.read b :=
  Memory.read_writeBytes m Config.programBase bytes (show 0x8000 + bytes.length ≤ 65536 by omega) b

/-! ### The statements -/

/-- Settles O1: the reset state is written out in `resetUnit`, PC as the word at the vector. -/
theorem resetRestoresPowerUpState : Obligations.ResetRestoresPowerUpState := by
  unfold Obligations.ResetRestoresPowerUpState
  exact fun s hs => ⟨resetUnit s, hostCommand_accepted hs _, rfl, rfl, rfl, rfl, rfl, word_eq_hiLo _ _,
    rfl, rfl, resetUnit_mem s⟩

/-- Settles O4: one clause for each answer of `run`. -/
theorem runStartsOrIsRefused : Obligations.RunStartsOrIsRefused := by
  unfold Obligations.RunStartsOrIsRefused
  refine fun s => ⟨fun hr hw => ?idle, fun hr => ?faulted, fun hr hw => ?neverReset⟩
  all_goals refine (hostCommand_accepted (by simp [hr]) _).trans ?_
  case idle => exact hostRun_idle hr hw
  case faulted => exact hostRun_faulted hr
  case neverReset => exact hostRun_never_reset hr hw

/-- Settles O5: the run state alone decides whether a command is looked at. -/
theorem commandsRefusedDuringRun : Obligations.CommandsRefusedDuringRun := by
  unfold Obligations.CommandsRefusedDuringRun
  exact fun s => ⟨fun hr => ⟨hostCommand_running hr, hostMemRead_running hr⟩, fun hr =>
    ⟨⟨_, hostCommand_accepted hr .reset⟩,
      fun b => ⟨hostCommand_accepted hr (.memRead b), hostMemRead_accepted hr b⟩,
      fun b v => ⟨_, hostCommand_accepted hr (.memWrite b v)⟩⟩⟩

/-- Settles O3: the vector's two cells are written last, the program's cells before them. -/
theorem loadPlacesProgramAndVector : Obligations.LoadPlacesProgramAndVector := by
  unfold Obligations.LoadPlacesProgramAndVector
  refine fun s bytes hs => ⟨fun hlen => ⟨(loadProgram bytes s).mem, ?accepted,
    (read_loadProgram_vector bytes s).1, (read_loadProgram_vector bytes s).2, ?program, ?other⟩,
    fun hlen => ?refused⟩
  case accepted => exact (hostCommand_accepted hs _).trans (hostLoad_of_le hlen s)
  case refused => exact (hostCommand_accepted hs _).trans (hostLoad_of_lt hlen s)
  case program =>
    intro k hk hlow hhigh
    have haddr : (BitVec.ofNat 16 (0x8000 + k)).toNat = 0x8000 + k := by
      rw [BitVec.toNat_ofNat, Nat.mod_eq_of_lt (by omega)]
    rw [read_loadProgram_other bytes s (by bv_omega) (by bv_omega),
      read_writeBytes_programBase s.mem hlen, dif_pos (by omega)]
    simp only [haddr, Nat.add_sub_cancel_left]
  case other =>
    intro b hb hlow hhigh
    rw [read_loadProgram_other bytes s hlow hhigh, read_writeBytes_programBase s.mem hlen,
      dif_neg (by omega)]

/-- Settles O6: each command is its operation on memory or on the whole unit. -/
theorem peekPokeAndLoadAndRun : Obligations.PeekPokeAndLoadAndRun := by
  unfold Obligations.PeekPokeAndLoadAndRun
  refine fun s => ⟨fun hr b v => ⟨hostMemRead_running hr b, hostCommand_running hr _⟩, fun hr =>
    ⟨fun b => ⟨hostCommand_accepted hr (.memRead b), hostMemRead_accepted hr b⟩,
      fun b v => ?poke, fun bytes t ht => ?loaded, fun bytes r hload => ?refused⟩⟩
  case poke =>
    have hstored := byteStored_write s.mem b v
    exact ⟨_, hostCommand_accepted hr (.memWrite b v), hstored,
      (hostMemRead_accepted (s := s.write b v) hr b).trans (congrArg Except.ok hstored.1)⟩
  case loaded =>
    have hload : hostLoad bytes s = .next t := (hostCommand_accepted hr (.load bytes)).symm.trans ht
    have ht' : t.runState ≠ .running := by
      rw [eq_loadProgram_of_hostLoad hload]
      exact hr
    exact ⟨resetUnit t, (resetUnit t).setRunState .running, hostCommand_accepted ht' .reset,
      (hostCommand_accepted (by simp [resetUnit]) .run).trans (hostRun_idle rfl rfl),
      (hostCommand_accepted hr (.loadAndRun bytes)).trans (hostLoadAndRun_next hload), rfl⟩
  case refused =>
    exact (hostCommand_accepted hr (.loadAndRun bytes)).trans
      (hostLoadAndRun_refused ((hostCommand_accepted hr (.load bytes)).symm.trans hload))

/-- Settles O7: the unit as created, and the unit that a reset makes of it. -/
theorem newAndResetUnitMeetInvariant : Obligations.NewAndResetUnitMeetInvariant := by
  unfold Obligations.NewAndResetUnitMeetInvariant
  refine ⟨unitInv_created, ?_⟩
  rw [← resetUnit_created]
  exact unitInv_created.resetUnit

/-- Settles O8: each command keeps the invariant or is refused. -/
theorem hostCommandsKeepInvariant : Obligations.HostCommandsKeepInvariant := by
  unfold Obligations.HostCommandsKeepInvariant
  exact fun c _ _ h ht => h.hostCommand c ht

end Sys2Proof.Machine
end

section
/-!
PROOF. Flag set and clear, no-op, halt (spec 49_flag_nop_brk.md R205 to R214): one lemma for the write of any flag; the
statements supply the seven instructions, NOP and BRK.
-/

namespace Sys2Proof.Machine

/-- A form that writes one flag writes its bit of P and nothing else (R205). -/
theorem performs_writeFlag {f : Form} (hf : f = formOf f.instr) (flag : Flag) (b : Bool)
    (hx : ∀ s, exec f.instr s = writeFlag flag b s) :
    Performs f fun s t => t = { s with p := t.p } ∧ BitsWritten s.p t.p [(flag.bit, b)] :=
  performs_of_next hf fun s => ⟨_, hx s, rfl, setFlag_bits s.p flag b⟩

/-- Settles O46: each form writes its mnemonic's flag, to 0 or to 1. -/
theorem flagInstructionsWriteOneFlag : Obligations.FlagInstructionsWriteOneFlag := by
  unfold Obligations.FlagInstructionsWriteOneFlag
  simp only [List.forall_mem_cons]
  refine ⟨?clc, ?sec, ?cli, ?sei, ?cld, ?sed, ?clv, List.forall_mem_nil _⟩
  case clc => exact performs_writeFlag rfl .carry false fun _ => rfl
  case sec => exact performs_writeFlag rfl .carry true fun _ => rfl
  case cli => exact performs_writeFlag rfl .interruptDisable false fun _ => rfl
  case sei => exact performs_writeFlag rfl .interruptDisable true fun _ => rfl
  case cld => exact performs_writeFlag rfl .decimal false fun _ => rfl
  case sed => exact performs_writeFlag rfl .decimal true fun _ => rfl
  case clv => exact performs_writeFlag rfl .overflow false fun _ => rfl

/-- Settles O47: NOP answers its own state, BRK its own state halted. -/
theorem nopAndBrkChangeNoRegisterOrMemory : Obligations.NopAndBrkChangeNoRegisterOrMemory := by
  unfold Obligations.NopAndBrkChangeNoRegisterOrMemory
  exact ⟨performs_of_next rfl fun s => ⟨s, rfl, rfl⟩,
    performs_of_next rfl fun s => ⟨haltRun s, rfl, haltRun_eq s⟩⟩

end Sys2Proof.Machine
end

section
/-!
PROOF. How a step can end (spec 60_exceptions.md R220 to R230, 70_reset_and_hazards.md R267): an instruction always
answers a next state and only BRK ends the run; an unassigned opcode byte is the one fatal error.
-/

namespace Sys2Proof.Machine

/-- Settles O17: no effect touches the error latch, and BRK's alone touches the run state. -/
theorem noInstructionEffectFails : Obligations.NoInstructionEffectFails := by
  unfold Obligations.NoInstructionEffectFails
  intro i s
  by_cases hi : i = .brk
  · subst hi
    exact ⟨haltRun s, rfl, rfl, rfl⟩
  · obtain ⟨e, hm, he⟩ := exec_effect i s
    refine ⟨_, he, e.apply_error s, ?_⟩
    rw [if_neg hi]
    exact (e.apply_runState_or_brk s).resolve_right fun hbrk =>
      hi (eq_brk_of_mnemonic (List.mem_singleton.mp (hbrk hm)))

/-- The run state after a RUNNING step on an assigned opcode byte (R95). -/
theorem step_assigned_runState {s : State} {i : Instr} (hr : s.runState = .running)
    (hl : lookup (s.mem.read s.pc) = some i) :
    ∃ t, step s = .next t ∧ t.runState = if i = .brk then .idle else .running := by
  obtain ⟨t, he, -, hrun⟩ := noInstructionEffectFails i (inDispatch s)
  refine ⟨_, step_assigned hr hl he, ?_⟩
  rw [skipOperands_eq, hrun, inDispatch_runState, hr]

/-- BRK's opcode byte, and no other, is looked up as BRK (R78, R213). -/
theorem lookup_eq_brk_iff {b : Byte} : lookup b = some .brk ↔ b = 0x00 :=
  ⟨fun h => (opcode_of_lookup h).symm, fun h => h ▸ lookup_opcode .brk⟩

/-- Settles O15: none of the 105 bytes is in the matrix, so the step after the fetch is the fatal error. -/
theorem unassignedOpcodeAbortsRun : Obligations.UnassignedOpcodeAbortsRun := by
  unfold Obligations.UnassignedOpcodeAbortsRun
  intro s hr hb
  have hl : lookup (s.mem.read s.pc) = none := by
    revert hb
    generalize s.mem.read s.pc = b
    revert b
    decide
  exact ⟨_, step_unassigned hr hl, raiseFatal_eq _ _, rfl⟩

/-- Settles O18: an assigned byte halts the run if it is BRK's and goes on if not; an unassigned one is
never 0x00. -/
theorem runEndsOnlyAtBrkOrUnassignedByte : Obligations.RunEndsOnlyAtBrkOrUnassignedByte := by
  unfold Obligations.RunEndsOnlyAtBrkOrUnassignedByte
  intro s hr
  simp only [← lookup_eq_brk_iff, ne_eq]
  cases hl : lookup (s.mem.read s.pc) with
  | none => exact ⟨_, step_unassigned hr hl, by simp [raiseFatal]⟩
  | some i =>
    obtain ⟨t, hstep, hrun⟩ := step_assigned_runState hr hl
    refine ⟨t, hstep, ?_⟩
    by_cases hi : i = .brk <;> simp [hrun, hi]

/-- Settles O16: while RUNNING the byte at PC is assigned or not, and both have a next state. -/
theorem stepStopsOnlyWhenFaulted : Obligations.StepStopsOnlyWhenFaulted := by
  unfold Obligations.StepStopsOnlyWhenFaulted
  refine fun s => ⟨fun hr => ?_, step_idle, step_faulted⟩
  obtain ⟨t, hstep, -⟩ := runEndsOnlyAtBrkOrUnassignedByte s hr
  exact ⟨t, hstep⟩

/-- Settles O2: the reset of a new unit is `State.reset`, whose PC is 0x0000, where an empty memory holds
BRK's byte. -/
theorem newUnitHaltsAtItsFirstStep : Obligations.NewUnitHaltsAtItsFirstStep := by
  unfold Obligations.NewUnitHaltsAtItsFirstStep
  have hreset : hostCommand .reset State.created = .next State.reset :=
    (hostCommand_accepted (by decide) .reset).trans (congrArg Host.Outcome.next resetUnit_created)
  have hrun : hostCommand .run State.reset = .next (State.reset.setRunState .running) :=
    (hostCommand_accepted (by decide) .run).trans (hostRun_idle rfl rfl)
  have hstep := step_assigned (s := State.reset.setRunState .running) rfl
    (lookup_eq_brk_iff.mpr rfl) rfl
  exact ⟨_, _, _, hreset, hrun, hstep, rfl, rfl, rfl, rfl, rfl, rfl, rfl, rfl, rfl⟩

end Sys2Proof.Machine
end

section
/-!
PROOF. A control transfer to pcd (spec 70_reset_and_hazards.md R261): step 4 compares values, so such a transfer falls
through. A jump or branch writes PC alone; JSR moves the stack as well.
-/

namespace Sys2Proof.Machine

/-- An instruction that leaves PC at pcd, and the unit RUNNING, is followed by the next one in memory (R94). -/
theorem step_of_exec_to_pcd {s t : State} {i : Instr} (hr : s.runState = .running)
    (hl : lookup (s.mem.read s.pc) = some i) (he : exec i (inDispatch s) = .next t)
    (hrun : t.runState = .running) (hpc : t.pc = s.pc + 1#16) :
    step s = .next { t with pc := s.pc + BitVec.ofNat 16 i.length } := by
  obtain ⟨e, -, he'⟩ := exec_effect i (inDispatch s)
  cases he.symm.trans he'
  rw [step_assigned hr hl he, skipOperands_claim (length_range i).1 (e.apply_pcd _) (.inl hrun),
    if_pos hpc]

/-- A form that sets PC and nothing else, to a value that turns out to be pcd, falls through (R94). -/
theorem step_of_target_eq_pcd {f : Form} {target : State → Word}
    (hf : Performs f fun s t => t = { s with pc := target s }) {s : State} (hr : s.runState = .running)
    (hop : s.mem.read s.pc = f.code) (htarget : target (inDispatch s) = s.pc + 1#16) :
    ∃ u, step s = .next u ∧ u = { s with pc := s.pc + BitVec.ofNat 16 f.len, pcd := u.pcd } := by
  obtain ⟨-, -, hstep⟩ := hf
  obtain ⟨t, u, -, rfl, hu, heq⟩ := hstep s hr hop
  refine ⟨u, hu, heq.trans ?_⟩
  simp only [htarget, if_true]
  rfl

/-- A branch that is taken with the offset -1 goes to pcd (R170). -/
theorem step_of_branch_to_pcd {f : Form} {k : Nat} {want : Bool}
    (hf : Performs f fun s t => t = { s with
      pc := if s.p.getLsbD k = want then s.pc + 1#16 + BitVec.ofInt 16 (s.mem.read s.pc).toInt
            else s.pc })
    {s : State} (hr : s.runState = .running) (hop : s.mem.read s.pc = f.code)
    (hflag : s.p.getLsbD k = want) (hoffset : s.mem.read (s.pc + 1#16) = 0xFF) :
    ∃ u, step s = .next u ∧ u = { s with pc := s.pc + BitVec.ofNat 16 f.len, pcd := u.pcd } := by
  refine step_of_target_eq_pcd hf hr hop ?_
  have hback : BitVec.ofInt 16 (0xFF : Byte).toInt = 0xFFFF#16 := by decide
  simp only [inDispatch_p, inDispatch_pc, inDispatch_mem, hflag, if_true, hoffset, hback]
  bv_omega

/-- The word JSR leaves on the stack is the address of its last byte (R188). -/
theorem read_jumpToSubroutine_word (s : State) :
    hiLo ((jumpToSubroutine s).mem.read (stackCell s.sp))
      ((jumpToSubroutine s).mem.read (stackCell (s.sp - 1#8))) = s.pc + 1#16 := by
  rw [read_jumpToSubroutine_high, read_jumpToSubroutine_low, ← word_eq_hiLo, word_high_low]

/-- JSR's target, where its stack cells are not its operand bytes, is the operand word as it was (R263). -/
theorem jumpToSubroutine_pc {s : State}
    (hcells : ∀ c ∈ [stackCell s.sp, stackCell (s.sp - 1#8)], c ≠ s.pc ∧ c ≠ s.pc + 1#16) :
    (jumpToSubroutine s).pc = hiLo (s.mem.read (s.pc + 1#16)) (s.mem.read s.pc) := by
  obtain ⟨hhighFirst, hhighSecond⟩ := hcells (stackCell s.sp) (by simp)
  obtain ⟨hlowFirst, hlowSecond⟩ := hcells (stackCell (s.sp - 1#8)) (by simp)
  rw [← read_jumpToSubroutine_other hhighFirst.symm hlowFirst.symm,
    ← read_jumpToSubroutine_other hhighSecond.symm hlowSecond.symm]
  exact congrArg State.pc (jumpToSubroutine_eq s)

/-- A pointer whose low byte is not 0xFF: its high byte comes from the next address (R187). -/
theorem hiLo_succ_low {hi lo : Byte} (h : (hiLo hi lo).toNat % 256 ≠ 0xFF) :
    hiLo hi (lo + 1#8) = hiLo hi lo + 1#16 := by
  simp only [← word_eq_hiLo] at h ⊢
  rw [word_succ_low, if_neg]
  rintro rfl
  rw [toNat_word] at h
  simp at h

/-- Settles O20: each of the targets is pcd, and step 4 then adds the rest of the length. -/
theorem targetEqualToPcdFallsThrough : Obligations.TargetEqualToPcdFallsThrough := by
  unfold Obligations.TargetEqualToPcdFallsThrough
  have hnext (s : State) : s.pc + 1#16 + 1#16 = s.pc + 2#16 := BitVec.add_assoc _ _ _
  refine fun s hr => ⟨?branches, ?absolute, ?indirect, ?call⟩
  case branches =>
    have hbranches := branchesMovePcBySignedOffset
    simp only [Obligations.BranchesMovePcBySignedOffset, List.forall_mem_cons] at hbranches ⊢
    obtain ⟨hbcc, hbcs, hbne, hbeq, hbpl, hbmi, hbvc, hbvs, -⟩ := hbranches
    exact ⟨step_of_branch_to_pcd hbcc hr, step_of_branch_to_pcd hbcs hr, step_of_branch_to_pcd hbne hr,
      step_of_branch_to_pcd hbeq hr, step_of_branch_to_pcd hbpl hr, step_of_branch_to_pcd hbmi hr,
      step_of_branch_to_pcd hbvc hr, step_of_branch_to_pcd hbvs hr, List.forall_mem_nil _⟩
  case absolute =>
    intro hop htarget
    rw [← hnext] at htarget
    exact step_of_target_eq_pcd jumpsLoadPc.1 hr hop htarget
  case indirect =>
    intro ptr hop hptr hpage htarget
    rw [← hnext] at hptr
    subst hptr
    rw [← hiLo_succ_low hpage] at htarget
    exact step_of_target_eq_pcd jumpsLoadPc.2 hr hop htarget
  case call =>
    intro hop htarget hcells
    rw [← hnext] at htarget
    simp only [← hnext] at hcells
    have hpc := (jumpToSubroutine_pc (s := inDispatch s) hcells).trans htarget
    have hl : lookup (s.mem.read s.pc) = some .jsr := hop ▸ lookup_opcode .jsr
    exact ⟨_, step_of_exec_to_pcd hr hl rfl hr hpc, rfl,
      congrArg State.sp (jumpToSubroutine_eq (inDispatch s)),
      (read_jumpToSubroutine_word (inDispatch s)).trans (hnext s)⟩

end Sys2Proof.Machine
end
